-- ==== Sys2Proof/Word.lean ====
section
/-! DEFINITION. The word types of the codec (spec/00_scope.md R4, R6). -/

namespace Sys2Proof

/-- A byte, bits 7 (most significant) down to 0 (R6); `CFG_W` = 8 (R4). -/
abbrev Byte := BitVec 8

/-- A two-wire bus device address; `ADDR_W` = 7 (R4). -/
abbrev BusAddr := BitVec 7

/-- A host command word, `op` in bits 11:8 and `imm8` in bits 7:0 (R60). -/
abbrev CommandWord := BitVec 12

/-- The 16-bit sample container of the 2-data-byte class; `SAMPLE16_W` = 16 (R4). -/
abbrev Sample16 := BitVec 16

/-- The 32-bit sample container of the 3-data-byte class; `SAMPLE32_W` = 32 (R4). -/
abbrev Sample32 := BitVec 32

end Sys2Proof
end

