-- ==== Sys2Proof/Config.lean ====
section
/-! DEFINITION. What the document fixes (R4), the shape of what it leaves to a parameter (R5), and the
free values: everything the transport and device answer (R51) and the sample of a failed read (R135). -/

namespace Sys2Proof

/-- The parameters of the configuration byte that the document leaves open (R5): a mask and a shift per
field, the size codes, the mode codes, and the written value of the ready bit that means "initiate".
`Sys2Proof.Machine.layout` is the choice the machine runs with. -/
structure Layout where
  rdyMask : Byte
  chMask : Byte
  modeMask : Byte
  sizeMask : Byte
  gainMask : Byte
  rdyShift : Nat
  chShift : Nat
  modeShift : Nat
  sizeShift : Nat
  gainShift : Nat
  size12 : BitVec 2
  size14 : BitVec 2
  size16 : BitVec 2
  size18 : BitVec 2
  modeOneshot : BitVec 1
  modeContinuous : BitVec 1
  rdyInitiate : BitVec 1
  deriving DecidableEq, Repr

namespace Config

/-- `SENTINEL`, the status reserved for failure: all bits set (R4, R76). -/
def sentinel : Byte := 0xFF

/-- `WR_LEN`: bytes in the payload of a configuration write (R4). -/
def wrLen : Nat := 1

/-- `PROBE_LEN`: bytes in the payload of the presence probe (R4). -/
def probeLen : Nat := 0

/-- `RD_LEN_2`: bytes requested per read in the 2-data-byte class (R4). -/
def rdLen2 : Nat := 3

/-- `RD_LEN_3`: bytes requested per read in the 3-data-byte class (R4). -/
def rdLen3 : Nat := 4

/-- `ASM_SHIFT`: the arithmetic right shift after three data bytes are assembled (R4, R74). -/
def asmShift : Nat := 8

/-- FREE VALUE: `CFG_RESET`, the byte `CFG` holds after reset. The spec leaves it OPEN, with no default (R5,
D12), so nothing can be proved of it; log entry 1. -/
opaque cfgReset : Byte

/-- FREE VALUE: the transport's answer to a write when the state's script of answers is used up
(R51: any Boolean, chosen afresh at each transaction; log entry 3). -/
opaque freeAck : Nat → Bool

/-- FREE VALUE: the delivered count of a read when the script is used up (R51: any natural number;
log entry 3). -/
opaque freeCount : Nat → Nat

/-- FREE VALUE: byte number `pos` of a read's delivery when the script is used up (R51: any byte;
log entry 3). -/
opaque freeByte : Nat → Nat → Byte

/-- FREE VALUE: `draw_16()`, the sample of a failed read of class `TWO` (R135, U1; log entry 4). -/
opaque draw16 : Nat → Sample16

/-- FREE VALUE: `draw_32()`, the sample of a failed read of class `THREE` (R135, U1; log entry 4). -/
opaque draw32 : Nat → Sample32

end Config
end Sys2Proof
end

