-- ==== Sys2Proof/Syntax.lean ====
section
/-! DEFINITION. The rows of spec/opcode_table.json: the nine operations (R61) and the five frame formats
(R64, R70, R71, R72, R75), and the pseudo-instructions of R80 as abstract syntax. -/

namespace Sys2Proof

/-- One constructor per row of spec/opcode_table.json. The first nine are the host's commands (R61); the
operations without an operand carry none, since `imm8` is ignored there (R62). The last five are the
frame formats, "not an instruction" by the table's own note: what each means to the machine is in
`Sys2Proof/Machine/Frames.lean`. -/
inductive Instr where
  /-- `TEST`, presence probe (R90). -/
  | test
  /-- `CONFIGURE imm8`, load the cached configuration (R91). -/
  | configure (imm8 : Byte)
  /-- `GETCFG`, read back the cached configuration (R92). -/
  | getcfg
  /-- `START`, write the configuration and request a conversion (R100). -/
  | start
  /-- `STARTCH imm8`, select a channel in the cache, then do as `START` (R101). -/
  | startch (imm8 : Byte)
  /-- `GET16`, blocking read, class `TWO` (R111). -/
  | get16
  /-- `CHK16`, single-attempt read, class `TWO` (R112). -/
  | chk16
  /-- `GET18`, blocking read, class `THREE` (R113). -/
  | get18
  /-- `CHK18`, single-attempt read, class `THREE` (R114). -/
  | chk18
  /-- `FRAME.CFGBYTE`, the configuration byte format (R64). -/
  | frameCfgByte (rdy : BitVec 1) (ch : BitVec 2) (mode : BitVec 1) (size gain : BitVec 2)
  /-- `FRAME.CFGWRITE`, the one-byte write payload, ready bit "initiate" (R70). -/
  | frameCfgWrite (ch : BitVec 2) (mode : BitVec 1) (size gain : BitVec 2)
  /-- `FRAME.RESULT2`, the 3-byte result frame of class `TWO` in arrival order (R71). -/
  | frameResult2 (d0 d1 status : Byte)
  /-- `FRAME.RESULT3`, the 4-byte result frame of class `THREE` in arrival order (R72). -/
  | frameResult3 (d0 d1 d2 status : Byte)
  /-- `FRAME.STATUS`, the status byte: the ready bit as read and seven uninterpreted bits (R75). -/
  | frameStatus (ready : BitVec 1) (other : BitVec 7)
  deriving DecidableEq, Repr

/-- Whether a row is one of the nine operations the host can issue (R61). -/
def Instr.isCommand : Instr → Bool
  | .test | .configure _ | .getcfg | .start | .startch _ => true
  | .get16 | .chk16 | .get18 | .chk18 => true
  | .frameCfgByte _ _ _ _ _ | .frameCfgWrite _ _ _ _ => false
  | .frameResult2 _ _ _ | .frameResult3 _ _ _ _ | .frameStatus _ _ => false

/-- Channel names of the assembler, `ch1` to `ch4` (R80). -/
inductive ChannelName where
  | ch1 | ch2 | ch3 | ch4
  deriving DecidableEq, Repr

/-- Mode names of the assembler (R80). -/
inductive ModeName where
  | oneshot | continuous
  deriving DecidableEq, Repr

/-- Resolution names of the assembler, `12`, `14`, `16`, `18` (R80). -/
inductive SizeName where
  | s12 | s14 | s16 | s18
  deriving DecidableEq, Repr

/-- Gain names of the assembler, `x1`, `x2`, `x4`, `x8` (R80). -/
inductive GainName where
  | x1 | x2 | x4 | x8
  deriving DecidableEq, Repr

/-- One line of the spec's assembly (R79): an operation, or one of the two pseudo-instructions (R80). -/
inductive AsmLine where
  /-- A mnemonic of R61 with its operand, if it has one. -/
  | op (i : Instr)
  /-- `CONFIGURE.F rdy, ch, mode, size, gain`. -/
  | configureF (rdy : BitVec 1) (ch : ChannelName) (mode : ModeName) (size : SizeName) (gain : GainName)
  /-- `STARTCH.N k` with `k` in 0..3. -/
  | startchN (k : BitVec 2)
  deriving DecidableEq, Repr

end Sys2Proof
end

