-- ==== Sys2Proof/Machine/Operands.lean ====
section
/-! DEFINITION. The layout the machine runs with and the pure codec functions of spec/30_encoding.md:
`pack`, `unpack`, `start_byte`, `chan_amend`, `size_class`, `decode16`, `decode18` (R64 to R74). Every
function takes the layout as an argument, as R5 writes its rules with names and not with numbers. -/

namespace Sys2Proof.Machine

/-- The default layout of R5: `0x80`, `0x60`, `0x10`, `0x0C`, `0x03`, size codes 0 to 3, mode codes 0
and 1, initiate = 1. PRESUMED: the spec takes them from general knowledge of the chip family (D3, D4,
D5; log entries 5 and 6). -/
def layout : Layout where
  rdyMask := 0x80
  chMask := 0x60
  modeMask := 0x10
  sizeMask := 0x0C
  gainMask := 0x03
  rdyShift := 7
  chShift := 5
  modeShift := 4
  sizeShift := 2
  gainShift := 0
  size12 := 0
  size14 := 1
  size16 := 2
  size18 := 3
  modeOneshot := 0
  modeContinuous := 1
  rdyInitiate := 1

/-- `DEFAULT_ADDR`. PRESUMED: general knowledge in the spec (R5, R32, D13; log entry 7). -/
def defaultAddr : BusAddr := 0x68

/-- A field code moved to its place in the byte: `zext_8(code) << shift` (R65). -/
def inPlace {w : Nat} (code : BitVec w) (shift : Nat) : Byte := code.setWidth 8 <<< shift

/-- `pack(rdy, ch, mode, size, gain)`, the configuration-byte packer (R65). -/
def pack (L : Layout) (rdy : BitVec 1) (ch : BitVec 2) (mode : BitVec 1) (size gain : BitVec 2) : Byte :=
  inPlace rdy L.rdyShift ||| inPlace ch L.chShift ||| inPlace mode L.modeShift |||
    inPlace size L.sizeShift ||| inPlace gain L.gainShift

/-- The five fields of a configuration byte as codes, in the order of `pack` (R66). -/
structure Fields where
  rdy : BitVec 1
  ch : BitVec 2
  mode : BitVec 1
  size : BitVec 2
  gain : BitVec 2
  deriving DecidableEq, Repr

/-- One field of a byte: `(b & mask) >>u shift` (R66). -/
def field (w : Nat) (b mask : Byte) (shift : Nat) : BitVec w := ((b &&& mask) >>> shift).setWidth w

/-- `unpack(b)`, the inverse of `pack` (R66). -/
def unpack (L : Layout) (b : Byte) : Fields where
  rdy := field 1 b L.rdyMask L.rdyShift
  ch := field 2 b L.chMask L.chShift
  mode := field 1 b L.modeMask L.modeShift
  size := field 2 b L.sizeMask L.sizeShift
  gain := field 2 b L.gainMask L.gainShift

/-- `start_byte(c)`: the byte a start puts on the wire, the ready bit forced to "initiate" (R67). -/
def startByte (L : Layout) (c : Byte) : Byte :=
  (c &&& ~~~L.rdyMask) ||| inPlace L.rdyInitiate L.rdyShift

/-- `chan_amend(c, v)`: the channel field of `c` replaced by the one of the field-aligned operand `v`
(R68; the reading of 90_conflicts.md C5). -/
def chanAmend (L : Layout) (c v : Byte) : Byte :=
  (c &&& ~~~L.chMask) ||| (v &&& L.chMask)

/-- The two result classes (R69, R12). -/
inductive SizeClass where
  /-- 12, 14 and 16 bits: 2 data bytes. -/
  | two
  /-- 18 bits: 3 data bytes. -/
  | three
  deriving DecidableEq, Repr

/-- `size_class(c)`: `THREE` exactly when the size field holds `SIZE_18` (R69). -/
def sizeClass (L : Layout) (c : Byte) : SizeClass :=
  if c &&& L.sizeMask = inPlace L.size18 L.sizeShift then .three else .two

/-- `data_bytes` of a class (R69). -/
def dataBytes : SizeClass → Nat
  | .two => 2
  | .three => 3

/-- `frame_len` of a class: its data bytes and one status byte (R69, R4). -/
def frameLen : SizeClass → Nat
  | .two => Config.rdLen2
  | .three => Config.rdLen3

/-- `decode16(d0, d1)`: the 16-bit pattern `d0 ++ d1`, read as two's complement by `BitVec.toInt` (R73). -/
def decode16 (d0 d1 : Byte) : Sample16 := d0 ++ d1

/-- The 32-bit container before the shift, `d0 ++ d1 ++ d2 ++ g` (R74). -/
def assemble18 (d0 d1 d2 g : Byte) : Sample32 := d0 ++ d1 ++ d2 ++ g

/-- `decode18(d0, d1, d2)`: the 24 data bits sign-extended from bit 23 to 32 bits, which is the container
`assemble18 d0 d1 d2 g` shifted right arithmetically by `ASM_SHIFT`, whatever `g` (R8, R74, D20). -/
def decode18 (d0 d1 d2 : Byte) : Sample32 := (d0 ++ d1 ++ d2).signExtend 32

/-- The code of a channel name (R64, R80). -/
def channelCode : ChannelName → BitVec 2
  | .ch1 => 0
  | .ch2 => 1
  | .ch3 => 2
  | .ch4 => 3

/-- The code of a mode name (R64, R80). -/
def modeCode (L : Layout) : ModeName → BitVec 1
  | .oneshot => L.modeOneshot
  | .continuous => L.modeContinuous

/-- The code of a resolution name (R64, R80). -/
def sizeCode (L : Layout) : SizeName → BitVec 2
  | .s12 => L.size12
  | .s14 => L.size14
  | .s16 => L.size16
  | .s18 => L.size18

/-- The code of a gain name (R64, R80). -/
def gainCode : GainName → BitVec 2
  | .x1 => 0
  | .x2 => 1
  | .x4 => 2
  | .x8 => 3

/-- The one operation a line of assembly stands for (R80). -/
def expandAsm (L : Layout) : AsmLine → Instr
  | .op i => i
  | .configureF rdy ch mode size gain =>
    .configure (pack L rdy (channelCode ch) (modeCode L mode) (sizeCode L size) (gainCode gain))
  | .startchN k => .startch (inPlace k L.chShift)

end Sys2Proof.Machine
end

