-- ==== Sys2Proof/WellFormed.lean ====
section
/-! DEFINITION. Well-formedness. An `Instr` needs no check: every field has exactly its row's width as a
type, and the spec reserves no operand value (R77). What can be ill formed is a choice of layout (the
constraints of R5) and a command word (the reserved codes of R63). -/

namespace Sys2Proof

/-- `w` adjacent bits, the lowest at bit `shift`, in a byte. -/
def run (w shift : Nat) : Byte := BitVec.ofNat 8 ((2 ^ w - 1) * 2 ^ shift)

/-- The five masks are pairwise disjoint (R5). -/
def Layout.masksDisjoint (L : Layout) : Bool :=
  L.rdyMask &&& L.chMask == 0 && L.rdyMask &&& L.modeMask == 0 && L.rdyMask &&& L.sizeMask == 0 &&
  L.rdyMask &&& L.gainMask == 0 && L.chMask &&& L.modeMask == 0 && L.chMask &&& L.sizeMask == 0 &&
  L.chMask &&& L.gainMask == 0 && L.modeMask &&& L.sizeMask == 0 && L.modeMask &&& L.gainMask == 0 &&
  L.sizeMask &&& L.gainMask == 0

/-- The union of the five masks is `0xFF` (R5). -/
def Layout.masksCover (L : Layout) : Bool :=
  L.rdyMask ||| L.chMask ||| L.modeMask ||| L.sizeMask ||| L.gainMask == 0xFF

/-- Each mask is a run of adjacent bits of the width in R4 (1, 2, 1, 2, 2), starting at its shift and
inside the byte (R5). -/
def Layout.masksAreRuns (L : Layout) : Bool :=
  L.rdyShift + 1 ≤ 8 && L.rdyMask == run 1 L.rdyShift &&
  (L.chShift + 2 ≤ 8 && L.chMask == run 2 L.chShift) &&
  (L.modeShift + 1 ≤ 8 && L.modeMask == run 1 L.modeShift) &&
  (L.sizeShift + 2 ≤ 8 && L.sizeMask == run 2 L.sizeShift) &&
  (L.gainShift + 2 ≤ 8 && L.gainMask == run 2 L.gainShift)

/-- `SIZE_18` differs from `SIZE_12`, `SIZE_14` and `SIZE_16` (R5). -/
def Layout.size18Distinct (L : Layout) : Bool :=
  L.size18 != L.size12 && L.size18 != L.size14 && L.size18 != L.size16

/-- `RDY_MASK` has exactly one bit (R5). -/
def Layout.rdyOneBit (L : Layout) : Bool :=
  (List.range 8).countP (fun i => L.rdyMask.getLsbD i) == 1

/-- The well-formedness R5 requires of any choice of masks and codes. -/
def Layout.wf (L : Layout) : Bool :=
  L.masksDisjoint && L.masksCover && L.masksAreRuns && L.size18Distinct && L.rdyOneBit

/-- The number of operation codes the spec names, `0x0` to `0x8` (R61). -/
def operationCodes : Nat := 9

/-- A command word whose operation code is not reserved (R63). -/
def commandWordWf (w : CommandWord) : Bool :=
  (w.extractLsb' 8 4).toNat < operationCodes

end Sys2Proof
end

