-- ==== Sys2Proof/Decode.lean ====
section
/-! DEFINITION. Decoding and encoding of the rows of spec/opcode_table.json (R60 to R64, R70 to R72,
R75). Nothing in a frame tells which format it is (R78): the format is given beside the bits. -/

namespace Sys2Proof
open Sys2Proof.Machine

/-- The format a row's bits are read in: the table's "format" column, its `BYTE8` told apart by the row. -/
inductive Format where
  /-- `CMD12`: the host's command word (R60). -/
  | cmd12
  /-- `BYTE8` of `FRAME.CFGBYTE` (R64). -/
  | cfgByte
  /-- `WIRE_WR1` (R70). -/
  | wireWr1
  /-- `WIRE_RD3` (R71). -/
  | wireRd3
  /-- `WIRE_RD4` (R72). -/
  | wireRd4
  /-- `BYTE8` of `FRAME.STATUS` (R75). -/
  | statusByte
  deriving DecidableEq, Repr

/-- The width of a format in bits (R60, R64, R70 to R72, R75). -/
def Format.width : Format → Nat
  | .cmd12 => 12
  | .cfgByte | .wireWr1 | .statusByte => 8
  | .wireRd3 => 24
  | .wireRd4 => 32

/-- Why bits are no instruction or frame. -/
inductive DecodeError where
  /-- An operation code `0x9` to `0xF` (R63). -/
  | reservedOpcode (op : BitVec 4)
  /-- Bits set above the format's width. -/
  | tooWide (f : Format)
  /-- A write payload whose ready bit is not in the initiate state (R70). -/
  | readyNotInitiate
  deriving DecidableEq, Repr

/-- `op` of a command word, bits 11:8 (R60). -/
def opField (w : CommandWord) : BitVec 4 := w.extractLsb' 8 4

/-- `imm8` of a command word, bits 7:0, used as it stands (R60, R62). -/
def immField (w : CommandWord) : Byte := w.setWidth 8

/-- The operation a code names, on operand `imm8` (R61); operations without an operand ignore it (R62).
The codes `0x9` to `0xF` name none (R63). -/
def operation (op : BitVec 4) (imm8 : Byte) : Except DecodeError Instr :=
  match op.toNat with
  | 0 => .ok .test
  | 1 => .ok (.configure imm8)
  | 2 => .ok .getcfg
  | 3 => .ok .start
  | 4 => .ok (.startch imm8)
  | 5 => .ok .get16
  | 6 => .ok .chk16
  | 7 => .ok .get18
  | 8 => .ok .chk18
  | _ => .error (.reservedOpcode op)

/-- Decoding of the host's command word (R60 to R63). -/
def decodeCommand (w : CommandWord) : Except DecodeError Instr := operation (opField w) (immField w)

/-- A byte read as `FRAME.CFGBYTE` (R64, R66). -/
def decodeCfgByte (b : Byte) : Instr :=
  let f := unpack layout b
  .frameCfgByte f.rdy f.ch f.mode f.size f.gain

/-- A byte read as `FRAME.CFGWRITE`: its ready bit must be in the initiate state (R70). -/
def decodeCfgWrite (b : Byte) : Except DecodeError Instr :=
  let f := unpack layout b
  if f.rdy = layout.rdyInitiate then .ok (.frameCfgWrite f.ch f.mode f.size f.gain)
  else .error .readyNotInitiate

/-- Byte number `i` of a frame of `n` bytes held as one number, first byte received uppermost, as the
table numbers the result frames (`d[0]` in bits 23:16 of a 3-byte frame; log entry 15). -/
def frameByte (n i : Nat) (bits : BitVec 32) : Byte := bits.extractLsb' (8 * (n - 1 - i)) 8

/-- Decoding of any bits in a given format. -/
def decode (f : Format) (bits : BitVec 32) : Except DecodeError Instr :=
  if 2 ^ f.width ≤ bits.toNat then .error (.tooWide f)
  else match f with
    | .cmd12 => decodeCommand (bits.setWidth 12)
    | .cfgByte => .ok (decodeCfgByte (bits.setWidth 8))
    | .wireWr1 => decodeCfgWrite (bits.setWidth 8)
    | .wireRd3 => .ok (.frameResult2 (frameByte 3 0 bits) (frameByte 3 1 bits) (frameByte 3 2 bits))
    | .wireRd4 => .ok (.frameResult3 (frameByte 4 0 bits) (frameByte 4 1 bits) (frameByte 4 2 bits)
        (frameByte 4 3 bits))
    | .statusByte => .ok (.frameStatus (bits.extractLsb' 7 1) (bits.extractLsb' 0 7))

/-- The format a row is written in. -/
def Instr.format : Instr → Format
  | .test | .configure _ | .getcfg | .start | .startch _ => .cmd12
  | .get16 | .chk16 | .get18 | .chk18 => .cmd12
  | .frameCfgByte _ _ _ _ _ => .cfgByte
  | .frameCfgWrite _ _ _ _ => .wireWr1
  | .frameResult2 _ _ _ => .wireRd3
  | .frameResult3 _ _ _ _ => .wireRd4
  | .frameStatus _ _ => .statusByte

/-- `(op << 8) | imm8`, the encoding of a line (R79). -/
def commandWord (op : BitVec 4) (imm8 : Byte) : CommandWord := op ++ imm8

/-- The bits of a row, in its own format: `imm8` is 0 where there is no operand (R62, R79). -/
def encode : Instr → BitVec 32
  | .test => (commandWord 0x0 0).setWidth 32
  | .configure imm8 => (commandWord 0x1 imm8).setWidth 32
  | .getcfg => (commandWord 0x2 0).setWidth 32
  | .start => (commandWord 0x3 0).setWidth 32
  | .startch imm8 => (commandWord 0x4 imm8).setWidth 32
  | .get16 => (commandWord 0x5 0).setWidth 32
  | .chk16 => (commandWord 0x6 0).setWidth 32
  | .get18 => (commandWord 0x7 0).setWidth 32
  | .chk18 => (commandWord 0x8 0).setWidth 32
  | .frameCfgByte rdy ch mode size gain => (pack layout rdy ch mode size gain).setWidth 32
  | .frameCfgWrite ch mode size gain => (pack layout layout.rdyInitiate ch mode size gain).setWidth 32
  | .frameResult2 d0 d1 status => (d0 ++ d1 ++ status).setWidth 32
  | .frameResult3 d0 d1 d2 status => d0 ++ d1 ++ d2 ++ status
  | .frameStatus ready other => (ready ++ other).setWidth 32

/-- The mnemonic of a row, letter for letter (spec/opcode_table.json). -/
def Instr.mnemonic : Instr → String
  | .test => "TEST"
  | .configure _ => "CONFIGURE"
  | .getcfg => "GETCFG"
  | .start => "START"
  | .startch _ => "STARTCH"
  | .get16 => "GET16"
  | .chk16 => "CHK16"
  | .get18 => "GET18"
  | .chk18 => "CHK18"
  | .frameCfgByte _ _ _ _ _ => "FRAME.CFGBYTE"
  | .frameCfgWrite _ _ _ _ => "FRAME.CFGWRITE"
  | .frameResult2 _ _ _ => "FRAME.RESULT2"
  | .frameResult3 _ _ _ _ => "FRAME.RESULT3"
  | .frameStatus _ _ => "FRAME.STATUS"

/-- The format that a row of `nbits` bits, in whole bytes, is read in, for the host's question about the
table. DESIGN CHOICE (log entry 15): the three one-byte rows cannot be told apart by their bits, so a byte
with the ready bit set is read as `FRAME.CFGWRITE` (the only row with fixed bits) and any other byte as
`FRAME.CFGBYTE`. -/
def tableFormat (nbits w : Nat) : Option Format :=
  if nbits = 12 ∨ nbits = 16 then some .cmd12
  else if nbits = 24 then some .wireRd3
  else if nbits = 32 then some .wireRd4
  else if nbits = 8 then some (if w.testBit 7 then .wireWr1 else .cfgByte)
  else none

/-- The instruction the decoder reads from a row's bits, numbered as the table numbers them. -/
def decodeTableWord (nbits w : Nat) : Option Instr :=
  if 2 ^ 32 ≤ w then none
  else match tableFormat nbits w with
    | none => none
    | some f => (decode f (BitVec.ofNat 32 w)).toOption

end Sys2Proof
end

