-- ==== Sys2Proof/Machine/Flags.lean ====
section
/-! DEFINITION. The status-byte interpreter (R75, R76): the nearest thing the block has to flags. Nothing
here is stored: no condition code survives an operation (R27). -/

namespace Sys2Proof.Machine

/-- `busy(s)`: the ready bit of a delivered status byte is set, "conversion not yet complete" (R75). -/
def busy (L : Layout) (status : Byte) : Bool := status &&& L.rdyMask != 0

/-- How a returned status is to be read (R75). -/
inductive StatusClass where
  | fail
  | busy
  | complete
  deriving DecidableEq, Repr

/-- `status_class(s)`: the sentinel test comes first (R75, R134 (4)). -/
def statusClass (L : Layout) (status : Byte) : StatusClass :=
  if status = Config.sentinel then .fail
  else if busy L status then .busy
  else .complete

end Sys2Proof.Machine
end

