-- ==== Sys2Proof/Machine/State.lean ====
section
/-! DEFINITION. The machine's state as plain data, why a step can stop, and the state after reset.
The block has no memory, no register file and no program counter (R20, R27, R40). -/

namespace Sys2Proof.Machine

/-- A blocking read between two polls: the block remembers which of the two it is running (R29). -/
inductive BlockingRead where
  | get16
  | get18
  deriving DecidableEq, Repr

/-- The class a blocking read is tied to by its mnemonic (R78, R110). -/
def BlockingRead.sizeClass : BlockingRead → SizeClass
  | .get16 => .two
  | .get18 => .three

/-- The protocol phase of the document's state machine view: ghost state, which no rule reads (R30). -/
inductive Phase where
  /-- configuration (idle) -/
  | idle
  /-- conversion requested, after an acknowledged start -/
  | requested
  /-- conversion pending, status ready bit set -/
  | pending
  /-- conversion complete, status ready bit clear -/
  | complete
  deriving DecidableEq, Repr

/-- The transport's answer to one read transaction: the delivered count, any natural number, and bytes in
arrival order. A read of `n` bytes uses the first `n` of them, and only when `cnt = n` (R42, R51). -/
structure Delivery where
  cnt : Nat
  d0 : Byte
  d1 : Byte
  d2 : Byte
  d3 : Byte
  deriving DecidableEq, Repr

/-- The response of an operation, one format per operation (R60). A sample is its container's bit pattern;
its signed value is `BitVec.toInt`. -/
inductive Response where
  /-- `RSP_NONE`: `CONFIGURE` ended. -/
  | none
  /-- `RSP_BOOL`. -/
  | bool (ok : Bool)
  /-- `RSP_BYTE`. -/
  | byte (b : Byte)
  /-- `RSP_S16`: a status byte and a 16-bit sample. -/
  | s16 (status : Byte) (sample : Sample16)
  /-- `RSP_S32`: a status byte and a 32-bit sample. -/
  | s32 (status : Byte) (sample : Sample32)
  deriving DecidableEq, Repr

/-- One entry of the event history (R166). -/
inductive Transaction where
  /-- `(W, addr, payload bytes, ok)`. -/
  | write (addr : BusAddr) (payload : List Byte) (ok : Bool)
  /-- `(R, addr, n, cnt, bytes if cnt = n)`. -/
  | read (addr : BusAddr) (n cnt : Nat) (bytes : Option (List Byte))
  deriving DecidableEq, Repr

/-- One call of a transport primitive, with its answer where it has one (R41, R42). -/
inductive Call where
  | beginTransaction (addr : BusAddr)
  | writeByte (v : Byte)
  | endTransaction (ok : Bool)
  | requestBytes (addr : BusAddr) (n cnt : Nat)
  | readByte (b : Byte)
  deriving DecidableEq, Repr

/-- Why the machine stops with a fault: never. The hardware has no fault that traps and an error is an
ordinary response (R10 (5), R132), so the type has no constructor. -/
inductive Fault where
  deriving DecidableEq, Repr

/-- Why a step is refused. -/
inductive Refusal where
  /-- An instruction without a meaning in the model, raised by no arm of `exec` as it stands. Safe: the
  run ends. -/
  | notModelled (mnemonic : String)
  /-- Raised by `step` on a command word whose operation code is `0x9` to `0xF`: the spec gives it no
  meaning and has the model refuse it (R63). Safe. -/
  | reservedOpcode (op : BitVec 4)
  /-- Raised by the seven operations that read `CFG` while it is `unwritten`, in a block constructed with
  `CFG_RESET` left open: the spec has the model refuse them (R32, R152). Never raised from `State.reset` on. Safe. -/
  | cfgUnwritten
  /-- Raised by `FRAME.CFGBYTE`, the format of a byte and no operation (R64). Safe. -/
  | configByteIsAFormat
  /-- Raised by `FRAME.CFGWRITE`, the payload the block sends: what the device does with it the spec does
  not say (R28, R70). Safe. -/
  | writePayloadIsAnOutput
  /-- Raised by `FRAME.STATUS`, which reaches the block only as the last byte of a result frame (R43, R75).
  Safe. -/
  | statusByteIsPartOfAFrame
  /-- Raised by `FRAME.RESULT2` and `FRAME.RESULT3` when no poll is due: what the transport does with bytes
  nobody reads is the transport's affair (R42). Safe. -/
  | noPollDue
  deriving DecidableEq, Repr

/-- The state. `cfg`, `cfgWritten` and `addr` are the block's registers (R20, R7); `inFlight` is the hidden
state of R29; `phase` the ghost of R30; `responses`, `history` and `calls` are what R165, R166 and R117 speak
of, which the block never reads; `commands`, `writeAnswers` and `readAnswers` are the inputs still to come
from the host and the transport (R10, R51); `freeIndex` is the model's own counter for free values. -/
structure State where
  /-- `CFG`, the cached configuration byte (R21); no operation reads it while `cfgWritten` is false. -/
  cfg : Byte
  /-- False while `CFG` is `unwritten`: constructed with `CFG_RESET` left open, and no `CONFIGURE` since (R7, R32). -/
  cfgWritten : Bool
  /-- `ADDR`, the device address, immutable after construction (R24). -/
  addr : BusAddr
  /-- The blocking read due a poll, if one is in flight (R29, R115). -/
  inFlight : Option BlockingRead
  /-- The ghost protocol phase (R30). -/
  phase : Phase
  /-- The command words the host gives from here on, in order; each is taken only after the response of the
  one before (R141, R142). -/
  commands : List CommandWord
  /-- The transport's next answers to write transactions, in order (R51). -/
  writeAnswers : List Bool
  /-- The transport's next answers to read transactions, in order (R51). -/
  readAnswers : List Delivery
  /-- The responses given, in order (R165). -/
  responses : List Response
  /-- The transactions issued, in order (R166). -/
  history : List Transaction
  /-- The transport primitives called, in order (R41, R42, R117). -/
  calls : List Call
  /-- How many free values have been used; the index of the next one (log entry 3). -/
  freeIndex : Nat
  deriving DecidableEq, Repr

/-- The block as constructed with device address `a` and the parameter `CFG_RESET` (R5, R32, R150): no read in
flight, phase idle, nothing issued. With `CFG_RESET` given, `CFG` holds it; with `CFG_RESET` left open, `none`, `CFG`
is `unwritten`, and the byte 0 standing in `cfg` is read by no operation before `CONFIGURE` overwrites all of it
(log entry 1). No input is loaded (log entry 2). -/
def State.construct (a : BusAddr) (cfgReset : Option Byte) : State where
  cfg := cfgReset.getD 0
  cfgWritten := cfgReset.isSome
  addr := a
  inFlight := none
  phase := .idle
  commands := []
  writeAnswers := []
  readAnswers := []
  responses := []
  history := []
  calls := []
  freeIndex := 0

/-- The machine right after reset: constructed with `DEV_ADDR` = `DEFAULT_ADDR`, the host giving no address
(R5, R32, D13), and with a `CFG_RESET` of which nothing is known, as real hardware "would use some value" (R152).
DESIGN CHOICE (log entry 1). -/
def State.reset : State := State.construct defaultAddr (some Config.cfgReset)

end Sys2Proof.Machine
end

