-- ==== Sys2Proof/Machine/Ops.lean ====
section
/-! DEFINITION. The shared operations: the bus transactions (R41, R42), what raising `TransportFailure` does
(R135, the counterpart of taking an exception), responding, one poll of a blocking read (R115), reading and
writing `CFG` (R21, R152), and taking the host's next command (R142). -/

namespace Sys2Proof.Machine

/-! ### The registers -/

/-- `CFG <- v` (R7): after it `CFG` is no longer unwritten (R91). -/
def State.setCfg (s : State) (v : Byte) : State := { s with cfg := v, cfgWritten := true }

/-- An operation that reads `CFG`: it goes on with the value `CFG` holds, and is refused while `CFG` is `unwritten`
(R32, R152), which it never is from `State.reset` on (log entry 10). -/
def withCfg (s : State) (k : Byte → Host.Outcome State Fault Refusal) : Host.Outcome State Fault Refusal :=
  if s.cfgWritten then k s.cfg else .refused .cfgUnwritten

/-! ### Records kept of a run -/

/-- The operation in progress ends with a response (R7, R60, R142). -/
def State.respond (s : State) (r : Response) : State :=
  { s with responses := s.responses ++ [r], inFlight := none }

/-- The operation in progress holds: `r` is due another poll (R29, R115). -/
def State.hold (s : State) (r : BlockingRead) : State := { s with inFlight := some r }

/-- Transport primitives are called, in this order (R41, R42). -/
def State.callAll (s : State) (cs : List Call) : State := { s with calls := s.calls ++ cs }

/-- A transaction enters the event history (R166). -/
def State.record (s : State) (t : Transaction) : State := { s with history := s.history ++ [t] }

/-- The ghost protocol phase changes (R30). -/
def State.setPhase (s : State) (p : Phase) : State := { s with phase := p }

/-! ### The oracle (R51) -/

/-- The transport's answer to the next write: the script's, or any Boolean once it is used up. -/
def State.nextAck (s : State) : Bool :=
  match s.writeAnswers with
  | ok :: _ => ok
  | [] => Config.freeAck s.freeIndex

/-- The state once that answer is used. -/
def State.takeAck (s : State) : State :=
  match s.writeAnswers with
  | _ :: rest => { s with writeAnswers := rest }
  | [] => { s with freeIndex := s.freeIndex + 1 }

/-- A delivery nothing constrains: any count, any bytes. -/
def freeDelivery (i : Nat) : Delivery where
  cnt := Config.freeCount i
  d0 := Config.freeByte i 0
  d1 := Config.freeByte i 1
  d2 := Config.freeByte i 2
  d3 := Config.freeByte i 3

/-- The transport's answer to the next read: the script's, or any delivery once it is used up. -/
def State.nextDelivery (s : State) : Delivery :=
  match s.readAnswers with
  | d :: _ => d
  | [] => freeDelivery s.freeIndex

/-- The state once that answer is used. -/
def State.takeDelivery (s : State) : State :=
  match s.readAnswers with
  | _ :: rest => { s with readAnswers := rest }
  | [] => { s with freeIndex := s.freeIndex + 1 }

/-! ### Transactions -/

/-- The calls of a write transaction (R41). -/
def writeCalls (a : BusAddr) (payload : List Byte) (ok : Bool) : List Call :=
  .beginTransaction a :: payload.map Call.writeByte ++ [.endTransaction ok]

/-- `MemWrite(addr, n, v)` with the payload as a list of `n` = 0 or 1 bytes (R41): the state after it; its
answer is `s.nextAck`. -/
def memWrite (a : BusAddr) (payload : List Byte) (s : State) : State :=
  (s.takeAck.callAll (writeCalls a payload s.nextAck)).record (.write a payload s.nextAck)

/-- The first `n` bytes of a delivery, in arrival order (R42). -/
def Delivery.bytes (d : Delivery) (n : Nat) : List Byte := [d.d0, d.d1, d.d2, d.d3].take n

/-- What a read of `n` bytes consumes of a delivery: its bytes when the count is exactly `n`, else nothing
(R42, D14). -/
def Delivery.consumed (d : Delivery) (n : Nat) : Option (List Byte) :=
  if d.cnt = n then some (d.bytes n) else none

/-- The calls of a read transaction: no `readByte` on a bad delivery (R42). -/
def readCalls (a : BusAddr) (n cnt : Nat) (bytes : Option (List Byte)) : List Call :=
  .requestBytes a n cnt :: (bytes.getD []).map Call.readByte

/-- `MemRead(addr, n)` (R42): the state after it; its answer is `s.nextDelivery`. -/
def memRead (a : BusAddr) (n : Nat) (s : State) : State :=
  let d := s.nextDelivery
  (s.takeDelivery.callAll (readCalls a n d.cnt (d.consumed n))).record (.read a n d.cnt (d.consumed n))

/-! ### Results -/

/-- The status byte of a good delivery: its last byte (R43, R71, R72). -/
def Delivery.status (d : Delivery) : SizeClass → Byte
  | .two => d.d2
  | .three => d.d3

/-- The response a good delivery gives: the status byte unchanged and the decoded sample (R111 to R114). -/
def Delivery.response (d : Delivery) : SizeClass → Response
  | .two => .s16 d.d2 (decode16 d.d0 d.d1)
  | .three => .s32 d.d3 (decode18 d.d0 d.d1 d.d2)

/-- The causes of a `TransportFailure` of a read operation. They label causes for the reader: the hardware
does not report them (R130). -/
inductive FailureCause where
  | mismatch
  | shortRead
  deriving DecidableEq, Repr

/-- The response of a failed read: the sentinel and a sample nothing constrains (R135, U1). -/
def failResponse (k : SizeClass) (i : Nat) : Response :=
  match k with
  | .two => .s16 Config.sentinel (Config.draw16 i)
  | .three => .s32 Config.sentinel (Config.draw32 i)

/-- `raise TransportFailure(cause)` (R135): the operation ends with the sentinel and a fresh free sample;
no register changes and no primitive is called. Every cause has the same effect (R130). -/
def raiseTransportFailure (k : SizeClass) (_cause : FailureCause) (s : State) : State :=
  { s.respond (failResponse k s.freeIndex) with freeIndex := s.freeIndex + 1 }

/-- The host sees a delivered status byte: the ghost phase follows its ready bit (R30, R23). -/
def State.observe (s : State) (status : Byte) : State :=
  s.setPhase (if busy layout status then .pending else .complete)

/-- One poll of a blocking read: one read transaction, the count test, then the ready-bit test (R111, R113,
R115, R134). -/
def poll (r : BlockingRead) (s : State) : State :=
  let k := r.sizeClass
  let d := s.nextDelivery
  let s1 := memRead s.addr (frameLen k) s
  if d.cnt ≠ frameLen k then raiseTransportFailure k .shortRead s1
  else if busy layout (d.status k) then (s1.observe (d.status k)).hold r
  else (s1.observe (d.status k)).respond (d.response k)

/-- The single attempt of `CHK16` and `CHK18`: one read transaction and the count test; what came is
returned, busy or not (R112, R114). -/
def attempt (k : SizeClass) (s : State) : State :=
  let d := s.nextDelivery
  let s1 := memRead s.addr (frameLen k) s
  if d.cnt ≠ frameLen k then raiseTransportFailure k .shortRead s1
  else (s1.observe (d.status k)).respond (d.response k)

/-- The class check in front of every read operation, on the cached `CFG` and before any bus activity
(R110). -/
def classChecked (k : SizeClass) (body : State → State) (s : State) : Host.Outcome State Fault Refusal :=
  withCfg s fun c =>
    .next (if sizeClass layout c ≠ k then raiseTransportFailure k .mismatch s else body s)

/-- The write transaction of a start (R100, R101): `start_byte(CFG)` goes to the device and the response is
the transport's answer; the ghost phase goes to *conversion requested* on an acknowledge (R100). -/
def sendStart (s : State) : State :=
  let s1 := memWrite s.addr [startByte layout s.cfg] s
  (if s.nextAck then s1.setPhase .requested else s1).respond (.bool s.nextAck)

/-! ### The host side and the arrival of frames -/

/-- The host's next command word and the state once it is accepted (R142). -/
def fetchCommand (s : State) : Option (CommandWord × State) :=
  match s.commands with
  | w :: rest => some (w, { s with commands := rest })
  | [] => none

/-- A delivery is the transport's answer to the next read. -/
def State.deliver (s : State) (d : Delivery) : State := { s with readAnswers := d :: s.readAnswers }

/-- A result frame arrives as the whole delivery of the poll that is due (R42, R115). With no poll due
nothing is read, and what the transport does with the bytes the spec does not say. -/
def arrive (d : Delivery) (s : State) : Host.Outcome State Fault Refusal :=
  match s.inFlight with
  | some r => .next (poll r (s.deliver d))
  | none => .refused .noPollDue

/-- A 3-byte delivery (R71). -/
def delivery3 (d0 d1 status : Byte) : Delivery := ⟨3, d0, d1, status, 0⟩

/-- A 4-byte delivery (R72). -/
def delivery4 (d0 d1 d2 status : Byte) : Delivery := ⟨4, d0, d1, d2, status⟩

/-- One item of a transport script (R79): `W:ack` or `W:nak`, a read delivering the bytes listed, or `R:n`
alone, a count whose bytes are never read. -/
inductive ScriptItem where
  | write (ok : Bool)
  | frame3 (d0 d1 d2 : Byte)
  | frame4 (d0 d1 d2 d3 : Byte)
  | count (n : Nat)
  deriving DecidableEq, Repr

/-- The state with one more answer at the end of the transport's script (R79). -/
def State.addScript (s : State) : ScriptItem → State
  | .write ok => { s with writeAnswers := s.writeAnswers ++ [ok] }
  | .frame3 d0 d1 d2 => { s with readAnswers := s.readAnswers ++ [delivery3 d0 d1 d2] }
  | .frame4 d0 d1 d2 d3 => { s with readAnswers := s.readAnswers ++ [delivery4 d0 d1 d2 d3] }
  | .count n => { s with readAnswers := s.readAnswers ++ [⟨n, 0, 0, 0, 0⟩] }

end Sys2Proof.Machine
end

