-- ==== Sys2Proof/Machine/Frames.lean ====
section
/-! DEFINITION. The five frame formats of the table. Each is "not an instruction" by the table's own note. A
result frame acts on the block when it arrives as the answer to a poll that is due (R71, R72, R115); the
other three have no effect in the spec and stop by name. -/

namespace Sys2Proof.Machine

/-- `FRAME.CFGBYTE` (R64): a format; the spec gives it no effect by itself. -/
def execFrameCfgByte (_rdy : BitVec 1) (_ch : BitVec 2) (_mode : BitVec 1) (_size _gain : BitVec 2)
    (_s : State) : Host.Outcome State Fault Refusal :=
  .refused .configByteIsAFormat

/-- `FRAME.CFGWRITE` (R70): the payload the block sends to the device. No rule says what the device does
with a written byte (R28). -/
def execFrameCfgWrite (_ch : BitVec 2) (_mode : BitVec 1) (_size _gain : BitVec 2) (_s : State) :
    Host.Outcome State Fault Refusal :=
  .refused .writePayloadIsAnOutput

/-- `FRAME.RESULT2` (R71): three bytes arrive at the poll that is due. -/
def execFrameResult2 (d0 d1 status : Byte) (s : State) : Host.Outcome State Fault Refusal :=
  arrive (delivery3 d0 d1 status) s

/-- `FRAME.RESULT3` (R72): four bytes arrive at the poll that is due. -/
def execFrameResult3 (d0 d1 d2 status : Byte) (s : State) : Host.Outcome State Fault Refusal :=
  arrive (delivery4 d0 d1 d2 status) s

/-- `FRAME.STATUS` (R75): the last byte of a result frame; alone it reaches nothing. -/
def execFrameStatus (_ready : BitVec 1) (_other : BitVec 7) (_s : State) :
    Host.Outcome State Fault Refusal :=
  .refused .statusByteIsPartOfAFrame

end Sys2Proof.Machine
end

