-- ==== Sys2Proof/Machine/Probe.lean ====
section
/-! DEFINITION. `TEST`, `CONFIGURE`, `GETCFG` (spec/40_probe_config.md). -/

namespace Sys2Proof.Machine

/-- `TEST` (R90): an empty write transaction; the response is the transport's answer. `CFG` is neither read
nor written. -/
def execTest (s : State) : Host.Outcome State Fault Refusal :=
  .next ((memWrite s.addr [] s).respond (.bool s.nextAck))

/-- `CONFIGURE imm8` (R91): all 8 bits of `CFG`; no bus activity, no validation. -/
def execConfigure (imm8 : Byte) (s : State) : Host.Outcome State Fault Refusal :=
  .next ((s.setCfg imm8).respond .none)

/-- `GETCFG` (R92): the block's shadow, never the device's register. -/
def execGetcfg (s : State) : Host.Outcome State Fault Refusal :=
  withCfg s fun c => .next (s.respond (.byte c))

end Sys2Proof.Machine
end

