-- ==== Sys2Proof/Machine/Result.lean ====
section
/-! DEFINITION. `GET16`, `CHK16`, `GET18`, `CHK18` (spec/42_result.md). A blocking read runs its class check
and its first poll in the step that accepts it; each further poll is a step of its own (R115). -/

namespace Sys2Proof.Machine

/-- `GET16` (R111): blocking read, class `TWO`. -/
def execGet16 (s : State) : Host.Outcome State Fault Refusal := classChecked .two (poll .get16) s

/-- `CHK16` (R112): single-attempt read, class `TWO`. -/
def execChk16 (s : State) : Host.Outcome State Fault Refusal := classChecked .two (attempt .two) s

/-- `GET18` (R113): blocking read, class `THREE`. -/
def execGet18 (s : State) : Host.Outcome State Fault Refusal := classChecked .three (poll .get18) s

/-- `CHK18` (R114): single-attempt read, class `THREE`. -/
def execChk18 (s : State) : Host.Outcome State Fault Refusal := classChecked .three (attempt .three) s

end Sys2Proof.Machine
end

