-- ==== Sys2Proof/Machine/Start.lean ====
section
/-! DEFINITION. `START` and `STARTCH` (spec/41_start.md). -/

namespace Sys2Proof.Machine

/-- `START` (R100): one write transaction carrying `start_byte(CFG)`; `CFG` keeps its value. -/
def execStart (s : State) : Host.Outcome State Fault Refusal :=
  withCfg s fun _ => .next (sendStart s)

/-- `STARTCH imm8` (R101): the channel field of `CFG` is rewritten first, unconditionally; then as
`START`. -/
def execStartch (imm8 : Byte) (s : State) : Host.Outcome State Fault Refusal :=
  withCfg s fun c => .next (sendStart (s.setCfg (chanAmend layout c imm8)))

end Sys2Proof.Machine
end

