-- ==== Sys2Proof/Machine/Dispatch.lean ====
section
/-! DEFINITION. One arm per constructor of `Instr`. -/

namespace Sys2Proof.Machine
open Sys2Proof

def exec (i : Instr) (s : State) : Host.Outcome State Fault Refusal :=
  match i with
  | .test => Sys2Proof.Machine.execTest s
  | .configure imm8 => Sys2Proof.Machine.execConfigure imm8 s
  | .getcfg => Sys2Proof.Machine.execGetcfg s
  | .start => Sys2Proof.Machine.execStart s
  | .startch imm8 => Sys2Proof.Machine.execStartch imm8 s
  | .get16 => Sys2Proof.Machine.execGet16 s
  | .chk16 => Sys2Proof.Machine.execChk16 s
  | .get18 => Sys2Proof.Machine.execGet18 s
  | .chk18 => Sys2Proof.Machine.execChk18 s
  | .frameCfgByte rdy ch mode size gain => Sys2Proof.Machine.execFrameCfgByte rdy ch mode size gain s
  | .frameCfgWrite ch mode size gain => Sys2Proof.Machine.execFrameCfgWrite ch mode size gain s
  | .frameResult2 d0 d1 status => Sys2Proof.Machine.execFrameResult2 d0 d1 status s
  | .frameResult3 d0 d1 d2 status => Sys2Proof.Machine.execFrameResult3 d0 d1 d2 status s
  | .frameStatus ready other => Sys2Proof.Machine.execFrameStatus ready other s

end Sys2Proof.Machine
end

