-- ==== Sys2Proof/Machine/Step.lean ====
section
/-! DEFINITION. One step of the machine: one poll of a blocking read in flight (R115), or one command of the
host from its decoding to its response or its first hold (R142), or waiting for a command (R165). -/

namespace Sys2Proof.Machine

/-- The refusal of a word that decodes to no operation (R63). -/
def refuseWord (w : CommandWord) : Refusal := .reservedOpcode (opField w)

/-- One step. While a blocking read is in flight no command is accepted (R142). With no command to take the
block waits, indefinitely (R165). -/
def step (s : State) : Host.Outcome State Fault Refusal :=
  match s.inFlight with
  | some r => .next (poll r s)
  | none =>
    match fetchCommand s with
    | none => .next s
    | some (w, s') =>
      match decodeCommand w with
      | .ok i => exec i s'
      | .error _ => .refused (refuseWord w)

/-- The state with the instruction of these bits placed where `step` takes its next input (log entries 2 and
15). A command word of 12 bits becomes the host's next command to an idle block. A result frame becomes the
transport's answer to the poll that is due, of the frame's own class if none was. A one-byte row is placed
nowhere, and neither are bits that fit no row: the block takes no such input. -/
def State.withFetchWord (s : State) (nbits w : Nat) : State :=
  if (nbits = 12 ∨ nbits = 16) ∧ w < 4096 then
    { s with inFlight := none, commands := BitVec.ofNat 12 w :: s.commands }
  else match decodeTableWord nbits w with
    | some (.frameResult2 d0 d1 status) =>
      { s.deliver (delivery3 d0 d1 status) with inFlight := some (s.inFlight.getD .get16) }
    | some (.frameResult3 d0 d1 d2 status) =>
      { s.deliver (delivery4 d0 d1 d2 status) with inFlight := some (s.inFlight.getD .get18) }
    | _ => s

end Sys2Proof.Machine
end

