-- ==== Sys2Proof/Safety.lean ====
section
/-! DEFINITION. The terms claims are stated in: what a run leaves unchanged, what the delivered frames are,
the invariant of the machine, and what a host may rely on (R50, R141, R153). -/

namespace Sys2Proof.Machine

/-! ### What an operation leaves unchanged -/

/-- The two registers and whether `CFG` has been written are unchanged (R20). -/
structure SameRegisters (s t : State) : Prop where
  cfg : t.cfg = s.cfg
  cfgWritten : t.cfgWritten = s.cfgWritten
  addr : t.addr = s.addr

/-- The operation did nothing on the bus: no transaction, no primitive, no answer used
(R91, R92, R110). -/
structure NoBusActivity (s t : State) : Prop where
  history : t.history = s.history
  calls : t.calls = s.calls
  writeAnswers : t.writeAnswers = s.writeAnswers
  readAnswers : t.readAnswers = s.readAnswers

/-- The operation ended with the response `r`, the host's coming commands untouched (R60, R142). -/
structure Responds (s t : State) (r : Response) : Prop where
  responses : t.responses = s.responses ++ [r]
  inFlight : t.inFlight = none
  commands : t.commands = s.commands

/-- The operation is due another poll as `r`, no response given (R29, R115). -/
structure Holds (s t : State) (r : BlockingRead) : Prop where
  responses : t.responses = s.responses
  inFlight : t.inFlight = some r
  commands : t.commands = s.commands

/-- Exactly one write transaction carrying `payload`, the transport answering `s.nextAck` (R41). -/
structure WroteOnce (s t : State) (payload : List Byte) : Prop where
  history : t.history = s.history ++ [.write s.addr payload s.nextAck]
  calls : t.calls = s.calls ++
    (.beginTransaction s.addr :: payload.map Call.writeByte ++ [.endTransaction s.nextAck])
  writeAnswers : t.writeAnswers = s.writeAnswers.tail
  readAnswers : t.readAnswers = s.readAnswers

/-- Exactly one read transaction asking for `n` bytes, the transport answering `d`; `bytes` are the bytes
consumed, none on a wrong count (R42). -/
structure ReadOnce (s t : State) (n : Nat) (d : Delivery) (bytes : List Byte) : Prop where
  history : t.history = s.history ++ [.read s.addr n d.cnt (if d.cnt = n then some bytes else none)]
  calls : t.calls = s.calls ++
    .requestBytes s.addr n d.cnt :: (if d.cnt = n then bytes.map Call.readByte else [])
  writeAnswers : t.writeAnswers = s.writeAnswers

/-- The 2-data-byte read failed: the sentinel and a draw never used before (R135). -/
def FailsTwo (s t : State) : Prop :=
  ∃ i, Responds s t (.s16 0xFF (Config.draw16 i)) ∧ s.freeIndex ≤ i ∧ t.freeIndex = i + 1

/-- The 3-data-byte read failed: the sentinel and a draw never used before (R135). -/
def FailsThree (s t : State) : Prop :=
  ∃ i, Responds s t (.s32 0xFF (Config.draw32 i)) ∧ s.freeIndex ≤ i ∧ t.freeIndex = i + 1

/-- The primitives a transaction consists of (R41, R42). -/
def Transaction.calls : Transaction → List Call
  | .write a payload ok => writeCalls a payload ok
  | .read a n cnt bytes => readCalls a n cnt bytes

/-- The read operations of a class (R110). -/
def readsOfClass : SizeClass → List Instr
  | .two => [.get16, .chk16]
  | .three => [.get18, .chk18]

/-- `s` after a read of class `k` that failed with draw `j`: the response, the transactions `issued` with their
primitives, and the answers `left` to come; everything else is as in `s` (R135). -/
def State.afterFailure (s : State) (k : SizeClass) (j : Nat) (issued : List Transaction) (left : List Delivery) :
    State :=
  { s with
    responses := s.responses ++ [failResponse k j]
    inFlight := none
    history := s.history ++ issued
    calls := s.calls ++ issued.flatMap Transaction.calls
    readAnswers := left
    freeIndex := j + 1 }

/-- The read transaction of class `k` that a wrong count fails: no byte is consumed (R42). -/
def State.badRead (s : State) (k : SizeClass) : Transaction :=
  .read s.addr (frameLen k) s.nextDelivery.cnt none

/-- One poll of `GET16` against the delivery `d` (R111's loop body). -/
structure PollsTwo (s t : State) (d : Delivery) : Prop where
  registers : SameRegisters s t
  read : ReadOnce s t 3 d [d.d0, d.d1, d.d2]
  wrongCount : d.cnt ≠ 3 → FailsTwo s t
  busy : d.cnt = 3 → d.d2 &&& layout.rdyMask ≠ 0 → Holds s t .get16
  complete : d.cnt = 3 → d.d2 &&& layout.rdyMask = 0 → Responds s t (.s16 d.d2 (d.d0 ++ d.d1))

/-- One poll of `GET18` against the delivery `d` (R113's loop body). -/
structure PollsThree (s t : State) (d : Delivery) : Prop where
  registers : SameRegisters s t
  read : ReadOnce s t 4 d [d.d0, d.d1, d.d2, d.d3]
  wrongCount : d.cnt ≠ 4 → FailsThree s t
  busy : d.cnt = 4 → d.d3 &&& layout.rdyMask ≠ 0 → Holds s t .get18
  complete : d.cnt = 4 → d.d3 &&& layout.rdyMask = 0 →
    Responds s t (.s32 d.d3 ((d.d0 ++ d.d1 ++ d.d2).signExtend 32))

/-! ### Deliveries -/

/-- A full frame of the class with the ready bit set. -/
def Delivery.isBusy (k : SizeClass) (d : Delivery) : Bool :=
  d.cnt == frameLen k && busy layout (d.status k)

/-- A full frame of the class with the ready bit clear. -/
def Delivery.isComplete (k : SizeClass) (d : Delivery) : Bool :=
  d.cnt == frameLen k && !busy layout (d.status k)

/-- The history entry of a full frame read by class `k` at address `a` (R166). -/
def fullRead (a : BusAddr) (k : SizeClass) (d : Delivery) : Transaction :=
  .read a (frameLen k) (frameLen k) (some (d.bytes (frameLen k)))

/-- The operation a blocking read is the poll loop of. -/
def BlockingRead.instr : BlockingRead → Instr
  | .get16 => .get16
  | .get18 => .get18

/-! ### The invariant -/

/-- The bus address of a transaction. -/
def Transaction.addr : Transaction → BusAddr
  | .write a _ _ => a
  | .read a _ _ _ => a

/-- A transaction of a form the block can issue: a write of nothing or of one byte with the ready bit in the
initiate state (R45, R70), or a read of 3 or 4 bytes whose bytes are there exactly on a full count (R42). -/
def Transaction.framed : Transaction → Prop
  | .write _ payload _ => payload = [] ∨ ∃ b, payload = [b] ∧ startByte layout b = b
  | .read _ n cnt bytes => (n = 3 ∨ n = 4) ∧
      ((cnt = n ∧ ∃ bs, bytes = some bs ∧ bs.length = n) ∨ (cnt ≠ n ∧ bytes = none))

/-- A 32-bit sample lies in the 24-bit signed range, unless the read failed (R74). -/
def Response.ranged : Response → Prop
  | .s32 status sample => status = Config.sentinel ∨ (-8388608 ≤ sample.toInt ∧ sample.toInt ≤ 8388607)
  | _ => True

/-- The invariant of the machine: every transaction went to `ADDR` (R24, R40) in a form of R45; the primitives
called are those of the transactions, back to back and in order (R41, R42, R48); a read in flight has passed
its class check and `CFG` has not changed since (R110); every 18-bit sample is in the decoder's range (R74). -/
structure State.Inv (s : State) : Prop where
  addresses : ∀ x ∈ s.history, x.addr = s.addr
  framed : ∀ x ∈ s.history, x.framed
  calls : s.calls = s.history.flatMap Transaction.calls
  polled : ∀ r, s.inFlight = some r → s.cfgWritten = true ∧ sizeClass layout s.cfg = r.sizeClass
  ranged : ∀ x ∈ s.responses, x.ranged

/-! ### What the host and the device know -/

/-- The byte an acknowledged one-byte write carried. -/
def acknowledged : Transaction → Option Byte
  | .write _ [b] true => some b
  | _ => none

/-- The device's configuration as far as the acknowledged writes tell (R50): the last byte acknowledged. -/
def lastAcknowledged (h : List Transaction) : Option Byte := (h.filterMap acknowledged).getLast?

/-- Cache and device in step (R50, R153, R154): the last acknowledged byte is the one `CFG` would send. -/
def State.inStep (s : State) : Prop := lastAcknowledged s.history = some (startByte layout s.cfg)

/-- A response whose sample the host may use: its status is complete (R141, R158, R161). -/
def Response.usable : Response → Bool
  | .s16 status _ => statusClass layout status == .complete
  | .s32 status _ => statusClass layout status == .complete
  | _ => false

/-- `k` steps of the machine from `s`, stopping at the first refusal. -/
def runSteps (k : Nat) (s : State) : Host.Outcome State Fault Refusal := Host.Core.run core k s

/-- A good run of `k` steps: no step was refused (R132). A run that contains failed reads is good. -/
def goodRun (k : Nat) (s : State) : Prop := ∃ t, runSteps k s = .next t

/-! ### What the block never reads -/

/-- The same outcome with a function applied to the next state. -/
def outcomeMap (f : State → State) : Host.Outcome State Fault Refusal → Host.Outcome State Fault Refusal
  | .next s => .next (f s)
  | .fault r => .fault r
  | .refused r => .refused r

/-- The state with everything the block only writes cleared: responses, history, primitive calls and the
ghost phase (R26, R30, R166). -/
def State.forget (s : State) : State :=
  { s with responses := [], history := [], calls := [], phase := .idle }

end Sys2Proof.Machine
end

