-- ==== Sys2Proof/Certificates/Slice0/Obligations.lean ====
section
/-! DEFINITION. The statements for the provers, rule by rule. `s.nextAck` and `s.nextDelivery` are the
transport's next answers: the script's, or free values once it is used up. -/

open Sys2Proof Sys2Proof.Machine

/-! ### Encoding -/

/-- Derived from R60 to R62, R64, R70 to R72, R75, R79: decoding a row's bits in its own format gives the row
back, every operand at every value. The byte formats stand at the default layout (PRESUMED, log entries 5, 6). -/
def Obligations.DecodeInvertsEncode : Prop :=
  ∀ i : Instr, decode i.format (encode i) = .ok i

/-- Derived from R60 to R62, R64, R70 to R72, R75: whatever bits decode in a format decode to an instruction of
that format, whose canonical bits differ from them at most in an `imm8` the operation ignores. The byte
formats stand at the default layout (PRESUMED, log entries 5, 6). -/
def Obligations.EncodeInvertsDecode : Prop :=
  ∀ (f : Format) (bits : BitVec 32) (i : Instr), decode f bits = .ok i →
    i.format = f ∧ (encode i = bits ∨
      (f = .cmd12 ∧ (∀ b, i ≠ .configure b ∧ i ≠ .startch b) ∧
        encode i = bits &&& 0xF00))

/-- R61, R62: the operation code alone selects the operation; `imm8` is the whole operand of `CONFIGURE` and
`STARTCH` and is ignored by the other seven. -/
def Obligations.OperationCodes : Prop :=
  ∀ imm8 : Byte,
    decodeCommand (0x0#4 ++ imm8) = .ok .test ∧
    decodeCommand (0x1#4 ++ imm8) = .ok (.configure imm8) ∧
    decodeCommand (0x2#4 ++ imm8) = .ok .getcfg ∧
    decodeCommand (0x3#4 ++ imm8) = .ok .start ∧
    decodeCommand (0x4#4 ++ imm8) = .ok (.startch imm8) ∧
    decodeCommand (0x5#4 ++ imm8) = .ok .get16 ∧
    decodeCommand (0x6#4 ++ imm8) = .ok .chk16 ∧
    decodeCommand (0x7#4 ++ imm8) = .ok .get18 ∧
    decodeCommand (0x8#4 ++ imm8) = .ok .chk18

/-- A few command words of R61 and R80 and a few frames of R70 to R72, written out (the write payload
at the default layout: PRESUMED, log entries 5, 6). -/
def Obligations.SampleWordsDecode : Prop :=
  decodeCommand 0x0AB = .ok .test ∧ decodeCommand 0x128 = .ok (.configure 0x28) ∧
  decodeCommand 0x440 = .ok (.startch 0x40) ∧ decodeCommand 0x800 = .ok .chk18 ∧
  decode .wireWr1 0xA8 = .ok (.frameCfgWrite 1 0 2 0) ∧
  decode .wireRd3 0x123400 = .ok (.frameResult2 0x12 0x34 0x00) ∧
  decode .wireRd4 0x01234500 = .ok (.frameResult3 0x01 0x23 0x45 0x00)

/-- R63: a command word with a reserved code is refused by an idle block, whatever the state and the operand;
the outcome holds no next state, so there is no response and no bus activity. -/
def Obligations.ReservedCodesRefused : Prop :=
  ∀ (s : State) (w : CommandWord) (rest : List CommandWord),
    s.inFlight = none → s.commands = w :: rest → 9 ≤ (opField w).toNat →
    step s = .refused (.reservedOpcode (opField w))

/-! ### The codec functions -/

/-- R66: `unpack` takes the fields out by mask and shift, and is the inverse of `pack` in both directions, for
every layout R5 allows. The last clause is the rule's example, at the default positions (PRESUMED, log entry 5). -/
def Obligations.UnpackInvertsPack : Prop :=
  (∀ (L : Layout) (b : Byte),
    (unpack L b).rdy = ((b &&& L.rdyMask) >>> L.rdyShift).setWidth 1 ∧
    (unpack L b).ch = ((b &&& L.chMask) >>> L.chShift).setWidth 2 ∧
    (unpack L b).mode = ((b &&& L.modeMask) >>> L.modeShift).setWidth 1 ∧
    (unpack L b).size = ((b &&& L.sizeMask) >>> L.sizeShift).setWidth 2 ∧
    (unpack L b).gain = ((b &&& L.gainMask) >>> L.gainShift).setWidth 2) ∧
  (∀ L : Layout, L.wf = true →
    (∀ rdy ch mode size gain, unpack L (pack L rdy ch mode size gain) = ⟨rdy, ch, mode, size, gain⟩) ∧
    (∀ b, pack L (unpack L b).rdy (unpack L b).ch (unpack L b).mode (unpack L b).size (unpack L b).gain = b)) ∧
  unpack layout 0x9C = ⟨1, 0, 1, 3, 0⟩

/-- R65: `pack` is total and injective and every byte is the image of exactly one 5-tuple, for every layout R5
allows. The last clauses are the rule's own for the default positions (PRESUMED, log entry 5): there it is the
concatenation of the five codes. -/
def Obligations.PackIsABijection : Prop :=
  (∀ L : Layout, L.wf = true → ∀ b : Byte, ∃! f : Fields, pack L f.rdy f.ch f.mode f.size f.gain = b) ∧
  (∀ (rdy : BitVec 1) (ch : BitVec 2) (mode : BitVec 1) (size gain : BitVec 2),
    pack layout rdy ch mode size gain = rdy ++ ch ++ mode ++ size ++ gain) ∧
  pack layout 0 1 0 2 0 = 0x28

/-- R67, for every layout R5 allows: every bit outside the ready field is unchanged, the ready field holds the
initiate code, the function is idempotent and does not depend on the ready bit of its argument.
The last clauses are the rule's own for the default layout (PRESUMED, log entries 5 and 6): there it sets bit 7. -/
def Obligations.StartByteForcesReady : Prop :=
  (∀ L : Layout, L.wf = true → ∀ c : Byte,
    startByte L c &&& ~~~L.rdyMask = c &&& ~~~L.rdyMask ∧
    (unpack L (startByte L c)).rdy = L.rdyInitiate ∧
    startByte L (startByte L c) = startByte L c ∧
    ∀ c', c' &&& ~~~L.rdyMask = c &&& ~~~L.rdyMask → startByte L c' = startByte L c) ∧
  (∀ c, startByte layout c = c ||| 0x80) ∧
  startByte layout 0x28 = 0xA8 ∧ startByte layout 0x9C = 0x9C

/-- R68, for any layout: the channel field comes from the operand and every other bit from the byte; a second
amendment overrides the first. The last clauses are the rule's own for the default mask (PRESUMED, log entry 5). -/
def Obligations.ChanAmendReplacesChannel : Prop :=
  (∀ (L : Layout) (c v w : Byte),
    chanAmend L c v = (c &&& ~~~L.chMask) ||| (v &&& L.chMask) ∧
    chanAmend L c v &&& ~~~L.chMask = c &&& ~~~L.chMask ∧
    chanAmend L c v &&& L.chMask = v &&& L.chMask ∧
    chanAmend L (chanAmend L c v) w = chanAmend L c w) ∧
  (∀ c v, ∃ u ∈ [0x00#8, 0x20#8, 0x40#8, 0x60#8], chanAmend layout c v = chanAmend layout c u) ∧
  (∀ c, chanAmend layout c 0x01 = chanAmend layout c 0x00 ∧ chanAmend layout c 0x02 = chanAmend layout c 0x00 ∧
    chanAmend layout c 0x03 = chanAmend layout c 0x00) ∧
  chanAmend layout 0x18 0x40 = 0x58 ∧ chanAmend layout 0x58 0x02 = 0x18 ∧ chanAmend layout 0x18 0xFF = 0x78

/-- R69, for every layout R5 allows: the class is `THREE` exactly when the size field holds `SIZE_18`, so it
is `TWO` for the other three resolutions, and no other field enters; with the class go the data bytes and the
frame length. -/
def Obligations.SizeClassFollowsSizeField : Prop :=
  (∀ L : Layout, L.wf = true → ∀ c : Byte,
    (sizeClass L c = .three ↔ (unpack L c).size = L.size18) ∧
    (sizeClass L c = .two ↔ (unpack L c).size ≠ L.size18) ∧
    (∀ rdy ch mode gain, ∀ size ∈ [L.size12, L.size14, L.size16],
      sizeClass L (pack L rdy ch mode size gain) = .two) ∧
    ∀ c', c' &&& L.sizeMask = c &&& L.sizeMask → sizeClass L c' = sizeClass L c) ∧
  dataBytes .two = 2 ∧ frameLen .two = 3 ∧ dataBytes .three = 3 ∧ frameLen .three = 4

/-- R73: the 16-bit sample is the two's complement reading of the high and the low byte, in the 16-bit signed
range and not narrowed. -/
def Obligations.Decode16IsTwosComplement : Prop :=
  (∀ d0 d1 : Byte,
    (decode16 d0 d1).toInt =
      (d0.toNat * 256 + d1.toNat : Int) - (if d0.getLsbD 7 then 65536 else 0) ∧
    -32768 ≤ (decode16 d0 d1).toInt ∧ (decode16 d0 d1).toInt ≤ 32767) ∧
  (decode16 0x12 0x34).toInt = 4660

/-- R74: the 32-bit sample is the container shifted right arithmetically by 8, whatever its low byte, that is
the 24 data bits read as two's complement from bit 23, in the 24-bit signed range. -/
def Obligations.Decode18IsShiftedContainer : Prop :=
  (∀ d0 d1 d2 g : Byte,
    decode18 d0 d1 d2 = (assemble18 d0 d1 d2 g).sshiftRight Config.asmShift ∧
    decode18 d0 d1 d2 = (d0 ++ d1 ++ d2).signExtend 32 ∧
    (decode18 d0 d1 d2).toInt =
      (d0.toNat * 65536 + d1.toNat * 256 + d2.toNat : Int) - (if d0.getLsbD 7 then 16777216 else 0) ∧
    -8388608 ≤ (decode18 d0 d1 d2).toInt ∧ (decode18 d0 d1 d2).toInt ≤ 8388607) ∧
  decode18 0x01 0x23 0x45 = 0x00012345

/-- R75, for every layout: the sentinel is read first, then the ready bit. The last clause is the rule's own
examples, at the default position of the ready bit (PRESUMED, log entry 5). -/
def Obligations.StatusClassTestsSentinelFirst : Prop :=
  (∀ (L : Layout) (b : Byte), (busy L b = true ↔ b &&& L.rdyMask ≠ 0) ∧
    (statusClass L b = .fail ↔ b = 0xFF) ∧
    (statusClass L b = .busy ↔ b ≠ 0xFF ∧ b &&& L.rdyMask ≠ 0) ∧
    (statusClass L b = .complete ↔ b ≠ 0xFF ∧ b &&& L.rdyMask = 0)) ∧
  statusClass layout 0x00 = .complete ∧ statusClass layout 0x28 = .complete ∧ statusClass layout 0xA8 = .busy ∧
  statusClass layout 0xFF = .fail

/-! ### The nine operations -/

/-- R90: `TEST` always completes, with one empty write transaction; the response is the transport's answer and
no register changes, whether `CFG` is written or not. -/
def Obligations.TestReportsAcknowledge : Prop :=
  (encode .test = 0x000 ∧ ∀ imm8 : Byte, decodeCommand (0x0#4 ++ imm8) = .ok .test) ∧
  ∀ s : State, ∃ t, exec .test s = .next t ∧ Responds s t (.bool s.nextAck) ∧ WroteOnce s t [] ∧
    SameRegisters s t

/-- R91: `CONFIGURE` always completes: `CFG` is the operand, all 8 bits, and is no longer unwritten; nothing
happens on the bus and `ADDR` keeps its value. -/
def Obligations.ConfigureLoadsCfg : Prop :=
  (∀ imm8 : Byte, decodeCommand (0x100#12 ||| imm8.setWidth 12) = .ok (.configure imm8)) ∧
  ∀ (s : State) (imm8 : Byte), ∃ t, exec (.configure imm8) s = .next t ∧ t.cfg = imm8 ∧ t.cfgWritten = true ∧
    Responds s t .none ∧ NoBusActivity s t ∧ t.addr = s.addr

/-- R92: `GETCFG` gives the cached byte and changes nothing, with no bus activity; while `CFG` is unwritten it
is refused. -/
def Obligations.GetcfgReturnsCfg : Prop :=
  (encode .getcfg = 0x200 ∧ ∀ imm8 : Byte, decodeCommand (0x2#4 ++ imm8) = .ok .getcfg) ∧
  ∀ s : State,
    (s.cfgWritten = true → ∃ t, exec .getcfg s = .next t ∧ Responds s t (.byte s.cfg) ∧ NoBusActivity s t ∧
      SameRegisters s t) ∧
    (s.cfgWritten = false → exec .getcfg s = .refused .cfgUnwritten)

/-- R100: `START` writes `start_byte(CFG)` in one transaction and answers with the acknowledge; no register
changes; the ghost phase goes to *requested* on true only. Refused while `CFG` is unwritten. -/
def Obligations.StartWritesStartByte : Prop :=
  (encode .start = 0x300 ∧ ∀ imm8 : Byte, decodeCommand (0x3#4 ++ imm8) = .ok .start) ∧
  ∀ s : State,
    (s.cfgWritten = true → ∃ t, exec .start s = .next t ∧ Responds s t (.bool s.nextAck) ∧
      WroteOnce s t [(s.cfg &&& ~~~layout.rdyMask) ||| (layout.rdyInitiate.setWidth 8 <<< layout.rdyShift)] ∧
      SameRegisters s t ∧
      (s.nextAck = true → t.phase = .requested) ∧ (s.nextAck = false → t.phase = s.phase)) ∧
    (s.cfgWritten = false → exec .start s = .refused .cfgUnwritten)

/-- R101: `STARTCH` first replaces the channel bits of `CFG` by the operand's, whatever the transport answers,
then writes the start byte of the amended `CFG`. Refused while `CFG` is unwritten. -/
def Obligations.StartchAmendsThenWrites : Prop :=
  (∀ imm8 : Byte, decodeCommand (0x400#12 ||| imm8.setWidth 12) = .ok (.startch imm8)) ∧
  ∀ (s : State) (imm8 : Byte),
    (s.cfgWritten = true → ∃ t, exec (.startch imm8) s = .next t ∧
      t.cfg = (s.cfg &&& ~~~layout.chMask) ||| (imm8 &&& layout.chMask) ∧
      Responds s t (.bool s.nextAck) ∧
      WroteOnce s t [(t.cfg &&& ~~~layout.rdyMask) ||| (layout.rdyInitiate.setWidth 8 <<< layout.rdyShift)] ∧
      t.cfgWritten = true ∧ t.addr = s.addr ∧ sizeClass layout t.cfg = sizeClass layout s.cfg) ∧
    (s.cfgWritten = false → exec (.startch imm8) s = .refused .cfgUnwritten)

/-- R102 (a) to (f), for both starts at once. -/
def Obligations.StartFamilyLaws : Prop :=
  ∀ (s : State) (v : Byte), s.cfgWritten = true → ∃ t u,
    exec .start s = .next t ∧ exec (.startch v) s = .next u ∧
    t.cfg = s.cfg ∧ u.cfg = chanAmend layout s.cfg v ∧
    ∀ x ∈ [t, u],
      x.history = s.history ++ [.write s.addr [startByte layout x.cfg] s.nextAck] ∧
      (unpack layout (startByte layout x.cfg)).rdy = layout.rdyInitiate ∧
      startByte layout x.cfg &&& ~~~layout.rdyMask = x.cfg &&& ~~~layout.rdyMask ∧
      sizeClass layout x.cfg = sizeClass layout s.cfg ∧
      x.responses = s.responses ++ [.bool s.nextAck] ∧
      x.calls = s.calls ++
        [.beginTransaction s.addr, .writeByte (startByte layout x.cfg), .endTransaction s.nextAck]

/-- R110: a read operation whose class is not the one `CFG` selects ends at once with the sentinel and a draw,
no primitive called and no register changed, whatever the transport would answer. -/
def Obligations.ClassMismatchFailsWithoutBus : Prop :=
  ∀ s : State, s.cfgWritten = true →
    (s.cfg &&& layout.sizeMask = layout.size18.setWidth 8 <<< layout.sizeShift → ∀ i ∈ [Instr.get16, .chk16],
      ∃ t, exec i s = .next t ∧ FailsTwo s t ∧ NoBusActivity s t ∧ SameRegisters s t) ∧
    (s.cfg &&& layout.sizeMask ≠ layout.size18.setWidth 8 <<< layout.sizeShift → ∀ i ∈ [Instr.get18, .chk18],
      ∃ t, exec i s = .next t ∧ FailsThree s t ∧ NoBusActivity s t ∧ SameRegisters s t)

/-- R111: `GET16`, from its acceptance to each of its polls, every case of its pseudocode. -/
def Obligations.Get16PollsUntilReady : Prop :=
  (encode .get16 = 0x500 ∧ ∀ imm8 : Byte, decodeCommand (0x5#4 ++ imm8) = .ok .get16) ∧
  ∀ s : State,
    (s.cfgWritten = false → exec .get16 s = .refused .cfgUnwritten) ∧
    (s.cfgWritten = true → sizeClass layout s.cfg = .three →
      ∃ t, exec .get16 s = .next t ∧ FailsTwo s t ∧ NoBusActivity s t ∧ SameRegisters s t) ∧
    (s.cfgWritten = true → sizeClass layout s.cfg = .two →
      ∃ t, exec .get16 s = .next t ∧ PollsTwo s t s.nextDelivery ∧ t.readAnswers = s.readAnswers.tail) ∧
    (s.inFlight = some .get16 → ∃ t, step s = .next t ∧ PollsTwo s t s.nextDelivery ∧
      t.readAnswers = s.readAnswers.tail)

/-- R113: `GET18`, from its acceptance to each of its polls, every case of its pseudocode. -/
def Obligations.Get18PollsUntilReady : Prop :=
  (encode .get18 = 0x700 ∧ ∀ imm8 : Byte, decodeCommand (0x7#4 ++ imm8) = .ok .get18) ∧
  ∀ s : State,
    (s.cfgWritten = false → exec .get18 s = .refused .cfgUnwritten) ∧
    (s.cfgWritten = true → sizeClass layout s.cfg = .two →
      ∃ t, exec .get18 s = .next t ∧ FailsThree s t ∧ NoBusActivity s t ∧ SameRegisters s t) ∧
    (s.cfgWritten = true → sizeClass layout s.cfg = .three →
      ∃ t, exec .get18 s = .next t ∧ PollsThree s t s.nextDelivery ∧ t.readAnswers = s.readAnswers.tail) ∧
    (s.inFlight = some .get18 → ∃ t, step s = .next t ∧ PollsThree s t s.nextDelivery ∧
      t.readAnswers = s.readAnswers.tail)

/-- R112: `CHK16` reads exactly once and returns what came, busy or not. -/
def Obligations.Chk16ReadsOnce : Prop :=
  (encode .chk16 = 0x600 ∧ ∀ imm8 : Byte, decodeCommand (0x6#4 ++ imm8) = .ok .chk16) ∧
  ∀ s : State,
    (s.cfgWritten = false → exec .chk16 s = .refused .cfgUnwritten) ∧
    (s.cfgWritten = true → sizeClass layout s.cfg = .three →
      ∃ t, exec .chk16 s = .next t ∧ FailsTwo s t ∧ NoBusActivity s t ∧ SameRegisters s t) ∧
    (s.cfgWritten = true → sizeClass layout s.cfg = .two → ∃ t, exec .chk16 s = .next t ∧
      SameRegisters s t ∧ t.readAnswers = s.readAnswers.tail ∧
      ReadOnce s t 3 s.nextDelivery [s.nextDelivery.d0, s.nextDelivery.d1, s.nextDelivery.d2] ∧
      (s.nextDelivery.cnt ≠ 3 → FailsTwo s t) ∧
      (s.nextDelivery.cnt = 3 →
        Responds s t (.s16 s.nextDelivery.d2 (s.nextDelivery.d0 ++ s.nextDelivery.d1))))

/-- R114: `CHK18` reads exactly once and returns what came, busy or not. -/
def Obligations.Chk18ReadsOnce : Prop :=
  (encode .chk18 = 0x800 ∧ ∀ imm8 : Byte, decodeCommand (0x8#4 ++ imm8) = .ok .chk18) ∧
  ∀ s : State,
    (s.cfgWritten = false → exec .chk18 s = .refused .cfgUnwritten) ∧
    (s.cfgWritten = true → sizeClass layout s.cfg = .two →
      ∃ t, exec .chk18 s = .next t ∧ FailsThree s t ∧ NoBusActivity s t ∧ SameRegisters s t) ∧
    (s.cfgWritten = true → sizeClass layout s.cfg = .three → ∃ t, exec .chk18 s = .next t ∧
      SameRegisters s t ∧ t.readAnswers = s.readAnswers.tail ∧
      ReadOnce s t 4 s.nextDelivery
        [s.nextDelivery.d0, s.nextDelivery.d1, s.nextDelivery.d2, s.nextDelivery.d3] ∧
      (s.nextDelivery.cnt ≠ 4 → FailsThree s t) ∧
      (s.nextDelivery.cnt = 4 → Responds s t (.s32 s.nextDelivery.d3
        ((s.nextDelivery.d0 ++ s.nextDelivery.d1 ++ s.nextDelivery.d2).signExtend 32))))

/-- Derived from R111 to R114: the two 16-bit reads complete in one step on a full frame with the ready bit
clear, with its status and the big-endian sample. Bit 7 is the default position of that bit (PRESUMED, log entry
5); the phase is log entry 9. -/
def Obligations.SixteenBitReadsComplete : Prop :=
  ∀ (s : State) (d0 d1 status : Byte) (rest : List Delivery),
    s.cfgWritten = true → sizeClass layout s.cfg = .two → status.getLsbD 7 = false →
    s.readAnswers = delivery3 d0 d1 status :: rest → ∀ i ∈ [Instr.get16, .chk16],
    ∃ t, exec i s = .next t ∧ Responds s t (.s16 status (d0 ++ d1)) ∧ SameRegisters s t ∧
      t.history = s.history ++ [.read s.addr 3 3 (some [d0, d1, status])] ∧ t.readAnswers = rest ∧
      t.phase = .complete

/-- Derived from R111 to R114: the two 18-bit reads complete in one step on a full frame with the ready bit
clear, with its status and the sign-extended sample. Bit 7 is the default position of that bit (PRESUMED, log
entry 5); the phase is log entry 9. -/
def Obligations.EighteenBitReadsComplete : Prop :=
  ∀ (s : State) (d0 d1 d2 status : Byte) (rest : List Delivery),
    s.cfgWritten = true → sizeClass layout s.cfg = .three → status.getLsbD 7 = false →
    s.readAnswers = delivery4 d0 d1 d2 status :: rest → ∀ i ∈ [Instr.get18, .chk18],
    ∃ t, exec i s = .next t ∧ Responds s t (.s32 status ((d0 ++ d1 ++ d2).signExtend 32)) ∧
      SameRegisters s t ∧ t.history = s.history ++ [.read s.addr 4 4 (some [d0, d1, d2, status])] ∧
      t.readAnswers = rest ∧ t.phase = .complete

/-- Derived from R152, R132, D29: once `CFG` is written every command runs to a next state, whatever the rest of
the state; before, exactly the seven that read `CFG` are refused. -/
def Obligations.CommandsRunOnceConfigured : Prop :=
  ∀ (i : Instr) (s : State), i.isCommand = true →
    ((∃ t, exec i s = .next t) ↔ (s.cfgWritten = true ∨ i = .test ∨ ∃ b, i = .configure b)) ∧
    (exec i s = .refused .cfgUnwritten ↔ (s.cfgWritten = false ∧ i ≠ .test ∧ ∀ b, i ≠ .configure b))

/-! ### Pseudo-instructions -/

/-- Derived from R80: `CONFIGURE.F` leaves `CFG` with the five field codes named, and `STARTCH.N k` leaves it
with channel code `k` and its other bits. The codes and positions are the default layout's (PRESUMED, log entry
5). -/
def Obligations.PseudoInstructionsSetFields : Prop :=
  (∀ (s : State) (rdy : BitVec 1) (ch : ChannelName) (mode : ModeName) (size : SizeName) (gain : GainName),
    ∃ t, exec (expandAsm layout (.configureF rdy ch mode size gain)) s = .next t ∧
      unpack layout t.cfg = ⟨rdy, channelCode ch, modeCode layout mode, sizeCode layout size, gainCode gain⟩) ∧
  (∀ (s : State) (k : BitVec 2), s.cfgWritten = true →
    ∃ t, exec (expandAsm layout (.startchN k)) s = .next t ∧ (unpack layout t.cfg).ch = k ∧
      t.cfg &&& ~~~layout.chMask = s.cfg &&& ~~~layout.chMask) ∧
  encode (expandAsm layout (.configureF 0 .ch2 .oneshot .s16 .x1)) = 0x128 ∧
  encode (expandAsm layout (.startchN 2)) = 0x440

/-! ### The frame formats -/

/-- Derived from R71, R72, R115 (the arrival of a frame as an event is the model's reading, log entry 14): a
result frame arriving at the poll that is due ends it, holds it, or fails it if it is of the other class's
length; the answers still to come are not used. -/
def Obligations.ResultFramesAnswerThePoll : Prop :=
  ∀ (s : State) (d0 d1 d2 status : Byte),
    (s.inFlight = some .get16 →
      (∃ t, exec (.frameResult2 d0 d1 status) s = .next t ∧ PollsTwo s t (delivery3 d0 d1 status) ∧
        t.readAnswers = s.readAnswers) ∧
      (∃ t, exec (.frameResult3 d0 d1 d2 status) s = .next t ∧ FailsTwo s t ∧ SameRegisters s t ∧
        t.history = s.history ++ [.read s.addr 3 4 none] ∧ t.readAnswers = s.readAnswers)) ∧
    (s.inFlight = some .get18 →
      (∃ t, exec (.frameResult3 d0 d1 d2 status) s = .next t ∧ PollsThree s t (delivery4 d0 d1 d2 status) ∧
        t.readAnswers = s.readAnswers) ∧
      (∃ t, exec (.frameResult2 d0 d1 status) s = .next t ∧ FailsThree s t ∧ SameRegisters s t ∧
        t.history = s.history ++ [.read s.addr 4 3 none] ∧ t.readAnswers = s.readAnswers)) ∧
    (s.inFlight = none →
      exec (.frameResult2 d0 d1 status) s = .refused .noPollDue ∧
      exec (.frameResult3 d0 d1 d2 status) s = .refused .noPollDue)

/-- Derived from R115 (log entry 14): a poll whose answer is a full frame is the arrival of that frame. -/
def Obligations.PollIsTheFrameArriving : Prop :=
  ∀ (s : State) (r : BlockingRead) (d0 d1 d2 status : Byte) (rest : List Delivery), s.inFlight = some r →
    (s.readAnswers = delivery3 d0 d1 status :: rest →
      step s = exec (.frameResult2 d0 d1 status) { s with readAnswers := rest }) ∧
    (s.readAnswers = delivery4 d0 d1 d2 status :: rest →
      step s = exec (.frameResult3 d0 d1 d2 status) { s with readAnswers := rest })

/-- Derived from R28, R64, R70, R75 and the table's notes "not an instruction": the three one-byte formats stop
by name in every state. -/
def Obligations.OneByteFormatsStop : Prop :=
  ∀ (s : State) (rdy mode : BitVec 1) (ch size gain : BitVec 2) (other : BitVec 7),
    exec (.frameCfgByte rdy ch mode size gain) s = .refused .configByteIsAFormat ∧
    exec (.frameCfgWrite ch mode size gain) s = .refused .writePayloadIsAnOutput ∧
    exec (.frameStatus rdy other) s = .refused .statusByteIsPartOfAFrame

/-! ### The step -/

/-- A step of an idle block runs the operation its next command word decodes to, on the state with that word
taken from the queue and nothing else changed (R142). -/
def Obligations.StepRunsDecodedCommand : Prop :=
  ∀ (s : State) (w : CommandWord) (rest : List CommandWord) (i : Instr),
    s.inFlight = none → s.commands = w :: rest → decodeCommand w = .ok i →
    step s = exec i { s with commands := rest }

/-- Derived from R60, R71, R72 (log entries 2 and 15): what `withFetchWord` places is what the next step runs:
a command on the idle block, a result frame at the poll that is due. -/
def Obligations.FetchWordIsRunNext : Prop :=
  ∀ (s : State) (nbits w : Nat) (i : Instr), decodeTableWord nbits w = some i →
    (i.isCommand = true → step (s.withFetchWord nbits w) = exec i { s with inFlight := none }) ∧
    (i.format = .wireRd3 → step (s.withFetchWord nbits w) =
      exec i { s with inFlight := some (s.inFlight.getD .get16) }) ∧
    (i.format = .wireRd4 → step (s.withFetchWord nbits w) =
      exec i { s with inFlight := some (s.inFlight.getD .get18) })

/-- R142: while a blocking read polls, a step takes no command, whatever the host has queued: the queue is
untouched and does not change what the step does; and at most one response is given, only by the read ending. -/
def Obligations.NoCommandWhilePolling : Prop :=
  ∀ (s : State) (r : BlockingRead) (q : List CommandWord), s.inFlight = some r →
    ∃ t, step s = .next t ∧ t.commands = s.commands ∧
      step { s with commands := q } = .next { t with commands := q } ∧
      ((t.inFlight = some r ∧ t.responses = s.responses) ∨
       (t.inFlight = none ∧ ∃ x, t.responses = s.responses ++ [x]))

/-- Derived from R165, R133: an idle block with no command to take waits and changes nothing. -/
def Obligations.IdleBlockWaits : Prop :=
  ∀ s : State, s.inFlight = none → s.commands = [] → step s = .next s

/-- Derived from R132: a step never faults, and it is refused only for a reserved code (R63) or for a reader of
`CFG`, an operation other than `TEST` and `CONFIGURE`, while `CFG` is unwritten (R152), in both cases by an idle
block. -/
def Obligations.OnlyTwoRefusals : Prop :=
  ∀ s : State, (∀ r, step s ≠ .fault r) ∧ ∀ r, step s = .refused r → s.inFlight = none ∧
    ((∃ w rest, s.commands = w :: rest ∧ 9 ≤ (opField w).toNat ∧ r = .reservedOpcode (opField w)) ∨
     (∃ w rest i, s.commands = w :: rest ∧ decodeCommand w = .ok i ∧ i ≠ .test ∧ (∀ b, i ≠ .configure b) ∧
       s.cfgWritten = false ∧ r = .cfgUnwritten))

/-! ### Reset and the registers -/

/-- Derived from R5, R32, R150: what construction leaves, at whatever address the host gives: `ADDR` is that address, no read is in
flight, the phase is idle, no transaction was issued and no response given; with `CFG_RESET` given `CFG` holds it, and
with `CFG_RESET` left open `CFG` is unwritten and its seven readers are refused. Reset has `DEFAULT_ADDR` in `ADDR`;
that it is construction with `CFG_RESET` given is the model's choice (log entry 1). -/
def Obligations.ResetValues : Prop :=
  (∀ (a : BusAddr) (c : Option Byte), (State.construct a c).addr = a ∧
    (State.construct a c).inFlight = none ∧ (State.construct a c).phase = .idle ∧
    (State.construct a c).history = [] ∧ (State.construct a c).calls = [] ∧ (State.construct a c).responses = [] ∧
    (∀ v, c = some v → (State.construct a c).cfg = v ∧ (State.construct a c).cfgWritten = true) ∧
    (c = none → (State.construct a c).cfgWritten = false ∧
      ∀ i : Instr, i.isCommand = true → i ≠ .test → (∀ b, i ≠ .configure b) →
        exec i (State.construct a c) = .refused .cfgUnwritten)) ∧
  State.reset = State.construct defaultAddr (some Config.cfgReset)

/-- Derived from R5, R32, R152: the model's own values at reset. `CFG` holds the named parameter `CFG_RESET`, a byte
without a known value (log entry 1). The address `0x68` is general knowledge in the spec (log entry 7); the byte
behind an unwritten `CFG` (log entry 1), the empty inputs (log entry 2) and the counter (log entry 3) are the model's
choice. -/
def Obligations.ResetChosenValues : Prop :=
  State.reset = State.construct 0x68 (some Config.cfgReset) ∧
  State.reset.cfg = Config.cfgReset ∧ State.reset.cfgWritten = true ∧
  State.reset.commands = [] ∧ State.reset.writeAnswers = [] ∧
  State.reset.readAnswers = [] ∧ State.reset.freeIndex = 0 ∧ ∀ a, (State.construct a none).cfg = 0

/-- Derived from R21, R24: no step changes `ADDR`, and the only steps that change `CFG` are those that run
`CONFIGURE` (to its operand) and `STARTCH` (in the channel bits only). -/
def Obligations.OnlyConfigureAndStartchWriteCfg : Prop :=
  ∀ s t : State, step s = .next t → t.addr = s.addr ∧
    ((t.cfg = s.cfg ∧ t.cfgWritten = s.cfgWritten) ∨
     (s.inFlight = none ∧ ∃ w rest imm8, s.commands = w :: rest ∧
       ((decodeCommand w = .ok (.configure imm8) ∧ t.cfg = imm8 ∧ t.cfgWritten = true) ∨
        (decodeCommand w = .ok (.startch imm8) ∧ s.cfgWritten = true ∧ t.cfgWritten = true ∧
          t.cfg = chanAmend layout s.cfg imm8))))

/-- Derived from R22, R69: a read operation depends on `CFG` through its size class only: with any other byte of
the same class it does the same. -/
def Obligations.ReadsSeeOnlyTheSizeClass : Prop :=
  ∀ (s : State) (c : Byte), sizeClass layout c = sizeClass layout s.cfg →
    ∀ i ∈ [Instr.get16, .chk16, .get18, .chk18],
      exec i { s with cfg := c } = outcomeMap (fun t => { t with cfg := c }) (exec i s)

/-! ### Whole-machine rules -/

/-- Derived from R24, R41, R42, R45, R74, R110, R166: every step keeps the machine's invariant. -/
def Obligations.StepKeepsInvariant : Prop :=
  ∀ s t : State, s.Inv → step s = .next t → t.Inv

/-- Derived from R32: the state after reset meets the invariant. -/
def Obligations.ResetMeetsInvariant : Prop := State.reset.Inv

/-- Derived from R45, R46, R48, R165, R166: a step only appends to the records, at most one transaction and at
most one response; it takes at most one command, and it gives no response only if a read is in flight after it, or
if it left the state as it is because the block is idle with no command to take. -/
def Obligations.StepAppendsAtMostOne : Prop :=
  ∀ s t : State, step s = .next t →
    (∃ h, t.history = s.history ++ h ∧ h.length ≤ 1) ∧
    (∃ x, t.responses = s.responses ++ x ∧ x.length ≤ 1 ∧
      (x = [] → t.inFlight.isSome = true ∨ (t = s ∧ s.inFlight = none ∧ s.commands = []))) ∧
    (∃ c, t.calls = s.calls ++ c) ∧
    (t.commands = s.commands ∨ (s.inFlight = none ∧ ∃ w, s.commands = w :: t.commands))

/-- Derived from R26, R30, R166: responses, history, primitive calls and the ghost phase are write-only: with
all of them cleared a step does the same to everything else. -/
def Obligations.RecordsAreNeverRead : Prop :=
  ∀ s : State, outcomeMap State.forget (step s.forget) = outcomeMap State.forget (step s)

/-- Derived from R117, R111, R113: a blocking read against `N` busy full frames and then a complete one ends after
exactly `N + 1` read transactions with the status and sample of the last, registers unchanged. The phase is log
entry 9. -/
def Obligations.BlockingReadEndsAfterNPlusOnePolls : Prop :=
  ∀ (r : BlockingRead) (s : State) (w : CommandWord) (cmds : List CommandWord) (ds rest : List Delivery)
    (d : Delivery),
    s.inFlight = none → s.cfgWritten = true → sizeClass layout s.cfg = r.sizeClass →
    s.commands = w :: cmds → decodeCommand w = .ok r.instr →
    s.readAnswers = ds ++ d :: rest → (∀ x ∈ ds, x.isBusy r.sizeClass = true) →
    d.isComplete r.sizeClass = true →
    ∃ t, runSteps (ds.length + 1) s = .next t ∧ t.inFlight = none ∧
      t.responses = s.responses ++ [d.response r.sizeClass] ∧
      t.history = s.history ++ (ds ++ [d]).map (fullRead s.addr r.sizeClass) ∧
      t.readAnswers = rest ∧ t.commands = cmds ∧ SameRegisters s t ∧ t.phase = .complete

/-- Derived from R117, R135: a blocking read against `N` busy full frames and then a wrong count ends after
exactly `N + 1` read transactions with the sentinel; the last consumes no byte. -/
def Obligations.BlockingReadFailsAtTheShortPoll : Prop :=
  ∀ (r : BlockingRead) (s : State) (w : CommandWord) (cmds : List CommandWord) (ds rest : List Delivery)
    (d : Delivery),
    s.inFlight = none → s.cfgWritten = true → sizeClass layout s.cfg = r.sizeClass →
    s.commands = w :: cmds → decodeCommand w = .ok r.instr →
    s.readAnswers = ds ++ d :: rest → (∀ x ∈ ds, x.isBusy r.sizeClass = true) →
    d.cnt ≠ frameLen r.sizeClass →
    ∃ t i, runSteps (ds.length + 1) s = .next t ∧ t.inFlight = none ∧
      t.responses = s.responses ++ [failResponse r.sizeClass i] ∧
      t.history = s.history ++ ds.map (fullRead s.addr r.sizeClass) ++
        [.read s.addr (frameLen r.sizeClass) d.cnt none] ∧
      t.readAnswers = rest ∧ t.commands = cmds ∧ SameRegisters s t

/-- Derived from R116: the hang. As long as every poll delivers a full frame with the ready bit set, a blocking
read gives no response: after `k` such polls it is still polling, whatever `k`. -/
def Obligations.BusyDeviceHangsTheRead : Prop :=
  ∀ (r : BlockingRead) (s : State) (ds rest : List Delivery),
    s.inFlight = some r → s.readAnswers = ds ++ rest → (∀ x ∈ ds, x.isBusy r.sizeClass = true) →
    ∃ t, runSteps ds.length s = .next t ∧ t.inFlight = some r ∧ t.responses = s.responses ∧
      t.history = s.history ++ ds.map (fullRead s.addr r.sizeClass) ∧ t.commands = s.commands ∧
      SameRegisters s t

/-- Derived from R115, R116: a poll leaves the read in flight exactly when it delivers a full frame with the
ready bit set; there is no other way on and no fourth exit. -/
def Obligations.PollEndsUnlessBusy : Prop :=
  ∀ (r : BlockingRead) (s : State), s.inFlight = some r →
    ∃ t, step s = .next t ∧ (t.inFlight = some r ↔ s.nextDelivery.isBusy r.sizeClass = true) ∧
      (t.inFlight = none ↔ s.nextDelivery.isBusy r.sizeClass = false)

/-- R118, for the response a poll of a blocking read gives: the sentinel exactly on failure, else the delivered
status, not busy, with the decode of the same delivery. -/
def Obligations.BlockingReadStatusProves : Prop :=
  ∀ (r : BlockingRead) (s t : State) (x : Response), s.inFlight = some r → step s = .next t →
    t.responses = s.responses ++ [x] →
    (s.nextDelivery.cnt ≠ frameLen r.sizeClass ∧ (∃ i, x = failResponse r.sizeClass i)) ∨
    (s.nextDelivery.cnt = frameLen r.sizeClass ∧ x = s.nextDelivery.response r.sizeClass ∧
      s.nextDelivery.status r.sizeClass ≠ Config.sentinel ∧
      busy layout (s.nextDelivery.status r.sizeClass) = false ∧ x.usable = true)

/-- Derived from R50, R153, R159: the configuration the device has acknowledged changes only by a step that runs
a start which is acknowledged, and is then the start byte of `CFG` as it stands after that step. -/
def Obligations.DeviceLearnsOnlyFromAcknowledgedStarts : Prop :=
  ∀ s t : State, step s = .next t →
    lastAcknowledged t.history = lastAcknowledged s.history ∨
    (t.inStep ∧ s.nextAck = true ∧ s.inFlight = none ∧ ∃ w rest, s.commands = w :: rest ∧
      (decodeCommand w = .ok .start ∨ ∃ v, decodeCommand w = .ok (.startch v)))

/-- Derived from R30, R100 (what moves the ghost phase where R30 gives no transition is the model's choice, log
entry 9): a step moves the phase by the transaction it issues: to *requested* on an acknowledged start, to
*pending* or *complete* by the ready bit of a delivered status byte, and otherwise not at all. -/
def Obligations.PhaseFollowsTheTransaction : Prop :=
  ∀ s t : State, step s = .next t →
    t.phase = match t.history.drop s.history.length with
      | [.write _ [_] true] => .requested
      | [.read _ 3 _ (some [_, _, status])] => if status.getLsbD 7 then .pending else .complete
      | [.read _ 4 _ (some [_, _, _, status])] => if status.getLsbD 7 then .pending else .complete
      | _ => s.phase

/-- Derived from R131, R135, R136: every failed read leaves no trace but its response, the draw it used and, on a
wrong count, the transaction it issued and the answer it took: a mismatch whatever the next delivery is, a wrong
count at acceptance and at any later poll, from the script or free. Everything else is as before, the ghost phase too
(there R30 gives no transition: the model's choice, log entry 9), and with the records cleared the next step does what it would have done had the read not been issued. -/
def Obligations.FailureIsNotSticky : Prop :=
  ∀ s : State,
    (∀ k, ∀ i ∈ readsOfClass k, s.cfgWritten = true →
      (sizeClass layout s.cfg ≠ k → exec i s = .next (s.afterFailure k s.freeIndex [] s.readAnswers)) ∧
      (sizeClass layout s.cfg = k → s.nextDelivery.cnt ≠ frameLen k → ∃ j, s.freeIndex ≤ j ∧
        exec i s = .next (s.afterFailure k j [s.badRead k] s.readAnswers.tail))) ∧
    (∀ r, s.inFlight = some r → s.nextDelivery.cnt ≠ frameLen r.sizeClass → ∃ j, s.freeIndex ≤ j ∧
      step s = .next (s.afterFailure r.sizeClass j [s.badRead r.sizeClass] s.readAnswers.tail)) ∧
    (∀ k j issued left, outcomeMap State.forget (step (s.afterFailure k j issued left)) =
      outcomeMap State.forget (step { s with inFlight := none, readAnswers := left, freeIndex := j + 1 }))

/-- Derived from R8: the one arithmetic law of the block. -/
def Obligations.ShiftIsSignExtension : Prop :=
  ∀ b0 b1 b2 g : Byte, (b0 ++ b1 ++ b2 ++ g).sshiftRight Config.asmShift = (b0 ++ b1 ++ b2).signExtend 32

/-- Derived from R100, R101, R30: a start moves the ghost phase to *requested* when the transport acknowledges it
and leaves it otherwise. R100 says so of `START`; of `STARTCH`, which does "as `START`", it is the model's reading
(log entry 9). -/
def Obligations.StartsMoveThePhase : Prop :=
  ∀ (s : State) (i : Instr), s.cfgWritten = true → (i = .start ∨ ∃ v, i = .startch v) →
    ∃ t, exec i s = .next t ∧ t.phase = if s.nextAck then .requested else s.phase

/-- Derived from R5, R152 (that `CFG` holds a byte at reset is the model's choice, log entries 1 and 10): the first
command after reset runs, whichever operation it is; a step keeps `CFG` written; and while it is written a step is
refused for a reserved code only. So no reader of `CFG` is refused in any run from reset. -/
def Obligations.EveryOperationRunsFromReset : Prop :=
  (∀ (w : CommandWord) (i : Instr), decodeCommand w = .ok i →
    ∃ t, step (State.reset.withFetchWord 12 w.toNat) = .next t ∧ exec i State.reset = .next t) ∧
  (∀ s t : State, s.cfgWritten = true → step s = .next t → t.cfgWritten = true) ∧
  (∀ (s : State) (r : Refusal), s.cfgWritten = true → step s = .refused r →
    ∃ w rest, s.commands = w :: rest ∧ 9 ≤ (opField w).toNat ∧ r = .reservedOpcode (opField w))
end

