-- ==== Sys2Proof/Laws/State.lean ====
section
/-! SUPPORT. One lemma per field per update of the state, true by `rfl`: later proofs unfold no record
update. -/

namespace Sys2Proof.Machine
variable (s : State)

@[simp] theorem State.setCfg_cfg (v : Byte) : (s.setCfg v).cfg = v := rfl
@[simp] theorem State.setCfg_cfgWritten (v : Byte) : (s.setCfg v).cfgWritten = true := rfl
@[simp] theorem State.setCfg_addr (v : Byte) : (s.setCfg v).addr = s.addr := rfl
@[simp] theorem State.setCfg_inFlight (v : Byte) : (s.setCfg v).inFlight = s.inFlight := rfl
@[simp] theorem State.setCfg_phase (v : Byte) : (s.setCfg v).phase = s.phase := rfl
@[simp] theorem State.setCfg_commands (v : Byte) : (s.setCfg v).commands = s.commands := rfl
@[simp] theorem State.setCfg_writeAnswers (v : Byte) : (s.setCfg v).writeAnswers = s.writeAnswers := rfl
@[simp] theorem State.setCfg_readAnswers (v : Byte) : (s.setCfg v).readAnswers = s.readAnswers := rfl
@[simp] theorem State.setCfg_responses (v : Byte) : (s.setCfg v).responses = s.responses := rfl
@[simp] theorem State.setCfg_history (v : Byte) : (s.setCfg v).history = s.history := rfl
@[simp] theorem State.setCfg_calls (v : Byte) : (s.setCfg v).calls = s.calls := rfl
@[simp] theorem State.setCfg_freeIndex (v : Byte) : (s.setCfg v).freeIndex = s.freeIndex := rfl

@[simp] theorem State.respond_cfg (r : Response) : (s.respond r).cfg = s.cfg := rfl
@[simp] theorem State.respond_cfgWritten (r : Response) : (s.respond r).cfgWritten = s.cfgWritten := rfl
@[simp] theorem State.respond_addr (r : Response) : (s.respond r).addr = s.addr := rfl
@[simp] theorem State.respond_inFlight (r : Response) : (s.respond r).inFlight = none := rfl
@[simp] theorem State.respond_phase (r : Response) : (s.respond r).phase = s.phase := rfl
@[simp] theorem State.respond_commands (r : Response) : (s.respond r).commands = s.commands := rfl
@[simp] theorem State.respond_writeAnswers (r : Response) : (s.respond r).writeAnswers = s.writeAnswers := rfl
@[simp] theorem State.respond_readAnswers (r : Response) : (s.respond r).readAnswers = s.readAnswers := rfl
@[simp] theorem State.respond_responses (r : Response) : (s.respond r).responses = s.responses ++ [r] := rfl
@[simp] theorem State.respond_history (r : Response) : (s.respond r).history = s.history := rfl
@[simp] theorem State.respond_calls (r : Response) : (s.respond r).calls = s.calls := rfl
@[simp] theorem State.respond_freeIndex (r : Response) : (s.respond r).freeIndex = s.freeIndex := rfl

@[simp] theorem State.hold_cfg (r : BlockingRead) : (s.hold r).cfg = s.cfg := rfl
@[simp] theorem State.hold_cfgWritten (r : BlockingRead) : (s.hold r).cfgWritten = s.cfgWritten := rfl
@[simp] theorem State.hold_addr (r : BlockingRead) : (s.hold r).addr = s.addr := rfl
@[simp] theorem State.hold_inFlight (r : BlockingRead) : (s.hold r).inFlight = some r := rfl
@[simp] theorem State.hold_phase (r : BlockingRead) : (s.hold r).phase = s.phase := rfl
@[simp] theorem State.hold_commands (r : BlockingRead) : (s.hold r).commands = s.commands := rfl
@[simp] theorem State.hold_writeAnswers (r : BlockingRead) : (s.hold r).writeAnswers = s.writeAnswers := rfl
@[simp] theorem State.hold_readAnswers (r : BlockingRead) : (s.hold r).readAnswers = s.readAnswers := rfl
@[simp] theorem State.hold_responses (r : BlockingRead) : (s.hold r).responses = s.responses := rfl
@[simp] theorem State.hold_history (r : BlockingRead) : (s.hold r).history = s.history := rfl
@[simp] theorem State.hold_calls (r : BlockingRead) : (s.hold r).calls = s.calls := rfl
@[simp] theorem State.hold_freeIndex (r : BlockingRead) : (s.hold r).freeIndex = s.freeIndex := rfl

@[simp] theorem State.callAll_cfg (cs : List Call) : (s.callAll cs).cfg = s.cfg := rfl
@[simp] theorem State.callAll_cfgWritten (cs : List Call) : (s.callAll cs).cfgWritten = s.cfgWritten := rfl
@[simp] theorem State.callAll_addr (cs : List Call) : (s.callAll cs).addr = s.addr := rfl
@[simp] theorem State.callAll_inFlight (cs : List Call) : (s.callAll cs).inFlight = s.inFlight := rfl
@[simp] theorem State.callAll_phase (cs : List Call) : (s.callAll cs).phase = s.phase := rfl
@[simp] theorem State.callAll_commands (cs : List Call) : (s.callAll cs).commands = s.commands := rfl
@[simp] theorem State.callAll_writeAnswers (cs : List Call) : (s.callAll cs).writeAnswers = s.writeAnswers := rfl
@[simp] theorem State.callAll_readAnswers (cs : List Call) : (s.callAll cs).readAnswers = s.readAnswers := rfl
@[simp] theorem State.callAll_responses (cs : List Call) : (s.callAll cs).responses = s.responses := rfl
@[simp] theorem State.callAll_history (cs : List Call) : (s.callAll cs).history = s.history := rfl
@[simp] theorem State.callAll_calls (cs : List Call) : (s.callAll cs).calls = s.calls ++ cs := rfl
@[simp] theorem State.callAll_freeIndex (cs : List Call) : (s.callAll cs).freeIndex = s.freeIndex := rfl

@[simp] theorem State.record_cfg (t : Transaction) : (s.record t).cfg = s.cfg := rfl
@[simp] theorem State.record_cfgWritten (t : Transaction) : (s.record t).cfgWritten = s.cfgWritten := rfl
@[simp] theorem State.record_addr (t : Transaction) : (s.record t).addr = s.addr := rfl
@[simp] theorem State.record_inFlight (t : Transaction) : (s.record t).inFlight = s.inFlight := rfl
@[simp] theorem State.record_phase (t : Transaction) : (s.record t).phase = s.phase := rfl
@[simp] theorem State.record_commands (t : Transaction) : (s.record t).commands = s.commands := rfl
@[simp] theorem State.record_writeAnswers (t : Transaction) : (s.record t).writeAnswers = s.writeAnswers := rfl
@[simp] theorem State.record_readAnswers (t : Transaction) : (s.record t).readAnswers = s.readAnswers := rfl
@[simp] theorem State.record_responses (t : Transaction) : (s.record t).responses = s.responses := rfl
@[simp] theorem State.record_history (t : Transaction) : (s.record t).history = s.history ++ [t] := rfl
@[simp] theorem State.record_calls (t : Transaction) : (s.record t).calls = s.calls := rfl
@[simp] theorem State.record_freeIndex (t : Transaction) : (s.record t).freeIndex = s.freeIndex := rfl

@[simp] theorem State.setPhase_cfg (p : Phase) : (s.setPhase p).cfg = s.cfg := rfl
@[simp] theorem State.setPhase_cfgWritten (p : Phase) : (s.setPhase p).cfgWritten = s.cfgWritten := rfl
@[simp] theorem State.setPhase_addr (p : Phase) : (s.setPhase p).addr = s.addr := rfl
@[simp] theorem State.setPhase_inFlight (p : Phase) : (s.setPhase p).inFlight = s.inFlight := rfl
@[simp] theorem State.setPhase_phase (p : Phase) : (s.setPhase p).phase = p := rfl
@[simp] theorem State.setPhase_commands (p : Phase) : (s.setPhase p).commands = s.commands := rfl
@[simp] theorem State.setPhase_writeAnswers (p : Phase) : (s.setPhase p).writeAnswers = s.writeAnswers := rfl
@[simp] theorem State.setPhase_readAnswers (p : Phase) : (s.setPhase p).readAnswers = s.readAnswers := rfl
@[simp] theorem State.setPhase_responses (p : Phase) : (s.setPhase p).responses = s.responses := rfl
@[simp] theorem State.setPhase_history (p : Phase) : (s.setPhase p).history = s.history := rfl
@[simp] theorem State.setPhase_calls (p : Phase) : (s.setPhase p).calls = s.calls := rfl
@[simp] theorem State.setPhase_freeIndex (p : Phase) : (s.setPhase p).freeIndex = s.freeIndex := rfl

@[simp] theorem State.deliver_cfg (d : Delivery) : (s.deliver d).cfg = s.cfg := rfl
@[simp] theorem State.deliver_cfgWritten (d : Delivery) : (s.deliver d).cfgWritten = s.cfgWritten := rfl
@[simp] theorem State.deliver_addr (d : Delivery) : (s.deliver d).addr = s.addr := rfl
@[simp] theorem State.deliver_inFlight (d : Delivery) : (s.deliver d).inFlight = s.inFlight := rfl
@[simp] theorem State.deliver_phase (d : Delivery) : (s.deliver d).phase = s.phase := rfl
@[simp] theorem State.deliver_commands (d : Delivery) : (s.deliver d).commands = s.commands := rfl
@[simp] theorem State.deliver_writeAnswers (d : Delivery) : (s.deliver d).writeAnswers = s.writeAnswers := rfl
@[simp] theorem State.deliver_readAnswers (d : Delivery) : (s.deliver d).readAnswers = d :: s.readAnswers := rfl
@[simp] theorem State.deliver_responses (d : Delivery) : (s.deliver d).responses = s.responses := rfl
@[simp] theorem State.deliver_history (d : Delivery) : (s.deliver d).history = s.history := rfl
@[simp] theorem State.deliver_calls (d : Delivery) : (s.deliver d).calls = s.calls := rfl
@[simp] theorem State.deliver_freeIndex (d : Delivery) : (s.deliver d).freeIndex = s.freeIndex := rfl

@[simp] theorem State.construct_addr (a : BusAddr) (c : Option Byte) : (State.construct a c).addr = a := rfl
@[simp] theorem State.construct_cfg_some (a : BusAddr) (v : Byte) : (State.construct a (some v)).cfg = v := rfl
@[simp] theorem State.construct_cfgWritten (a : BusAddr) (c : Option Byte) :
    (State.construct a c).cfgWritten = c.isSome := rfl
@[simp] theorem State.reset_cfg : State.reset.cfg = Config.cfgReset := rfl
@[simp] theorem State.reset_cfgWritten : State.reset.cfgWritten = true := rfl

end Sys2Proof.Machine
end

