-- ==== Sys2Proof/Laws/Ops.lean ====
section
/-! SUPPORT. What the shared operations do, field by field and case by case: the provers cite these instead
of unfolding an operation. -/

namespace Sys2Proof.Machine
variable (s : State)

/-! ### The oracle -/

@[simp] theorem State.takeAck_cfg : s.takeAck.cfg = s.cfg := by
  unfold State.takeAck; split <;> rfl
@[simp] theorem State.takeAck_cfgWritten : s.takeAck.cfgWritten = s.cfgWritten := by
  unfold State.takeAck; split <;> rfl
@[simp] theorem State.takeAck_addr : s.takeAck.addr = s.addr := by
  unfold State.takeAck; split <;> rfl
@[simp] theorem State.takeAck_inFlight : s.takeAck.inFlight = s.inFlight := by
  unfold State.takeAck; split <;> rfl
@[simp] theorem State.takeAck_phase : s.takeAck.phase = s.phase := by
  unfold State.takeAck; split <;> rfl
@[simp] theorem State.takeAck_commands : s.takeAck.commands = s.commands := by
  unfold State.takeAck; split <;> rfl
@[simp] theorem State.takeAck_writeAnswers : s.takeAck.writeAnswers = s.writeAnswers.tail := by
  unfold State.takeAck; split <;> simp_all
@[simp] theorem State.takeAck_readAnswers : s.takeAck.readAnswers = s.readAnswers := by
  unfold State.takeAck; split <;> rfl
@[simp] theorem State.takeAck_responses : s.takeAck.responses = s.responses := by
  unfold State.takeAck; split <;> rfl
@[simp] theorem State.takeAck_history : s.takeAck.history = s.history := by
  unfold State.takeAck; split <;> rfl
@[simp] theorem State.takeAck_calls : s.takeAck.calls = s.calls := by
  unfold State.takeAck; split <;> rfl
theorem State.takeAck_freeIndex :
    s.takeAck.freeIndex = if s.writeAnswers = [] then s.freeIndex + 1 else s.freeIndex := by
  unfold State.takeAck; split <;> simp_all

@[simp] theorem State.takeDelivery_cfg : s.takeDelivery.cfg = s.cfg := by
  unfold State.takeDelivery; split <;> rfl
@[simp] theorem State.takeDelivery_cfgWritten : s.takeDelivery.cfgWritten = s.cfgWritten := by
  unfold State.takeDelivery; split <;> rfl
@[simp] theorem State.takeDelivery_addr : s.takeDelivery.addr = s.addr := by
  unfold State.takeDelivery; split <;> rfl
@[simp] theorem State.takeDelivery_inFlight : s.takeDelivery.inFlight = s.inFlight := by
  unfold State.takeDelivery; split <;> rfl
@[simp] theorem State.takeDelivery_phase : s.takeDelivery.phase = s.phase := by
  unfold State.takeDelivery; split <;> rfl
@[simp] theorem State.takeDelivery_commands : s.takeDelivery.commands = s.commands := by
  unfold State.takeDelivery; split <;> rfl
@[simp] theorem State.takeDelivery_writeAnswers : s.takeDelivery.writeAnswers = s.writeAnswers := by
  unfold State.takeDelivery; split <;> rfl
@[simp] theorem State.takeDelivery_readAnswers : s.takeDelivery.readAnswers = s.readAnswers.tail := by
  unfold State.takeDelivery; split <;> simp_all
@[simp] theorem State.takeDelivery_responses : s.takeDelivery.responses = s.responses := by
  unfold State.takeDelivery; split <;> rfl
@[simp] theorem State.takeDelivery_history : s.takeDelivery.history = s.history := by
  unfold State.takeDelivery; split <;> rfl
@[simp] theorem State.takeDelivery_calls : s.takeDelivery.calls = s.calls := by
  unfold State.takeDelivery; split <;> rfl
theorem State.takeDelivery_freeIndex :
    s.takeDelivery.freeIndex = if s.readAnswers = [] then s.freeIndex + 1 else s.freeIndex := by
  unfold State.takeDelivery; split <;> simp_all

theorem State.nextAck_cons {ok : Bool} {rest : List Bool} (h : s.writeAnswers = ok :: rest) :
    s.nextAck = ok := by simp [State.nextAck, h]

theorem State.nextDelivery_cons {d : Delivery} {rest : List Delivery} (h : s.readAnswers = d :: rest) :
    s.nextDelivery = d := by simp [State.nextDelivery, h]

@[simp] theorem State.nextAck_setCfg (v : Byte) : (s.setCfg v).nextAck = s.nextAck := rfl

@[simp] theorem State.nextDelivery_deliver (d : Delivery) : (s.deliver d).nextDelivery = d := rfl

@[simp] theorem State.takeDelivery_deliver (d : Delivery) : (s.deliver d).takeDelivery = s := rfl

/-! ### Transactions -/

variable (a : BusAddr)

@[simp] theorem memWrite_cfg (p : List Byte) :
    (memWrite a p s).cfg = s.cfg := by simp [memWrite]
@[simp] theorem memWrite_cfgWritten (p : List Byte) :
    (memWrite a p s).cfgWritten = s.cfgWritten := by simp [memWrite]
@[simp] theorem memWrite_addr (p : List Byte) :
    (memWrite a p s).addr = s.addr := by simp [memWrite]
@[simp] theorem memWrite_inFlight (p : List Byte) :
    (memWrite a p s).inFlight = s.inFlight := by simp [memWrite]
@[simp] theorem memWrite_phase (p : List Byte) :
    (memWrite a p s).phase = s.phase := by simp [memWrite]
@[simp] theorem memWrite_commands (p : List Byte) :
    (memWrite a p s).commands = s.commands := by simp [memWrite]
@[simp] theorem memWrite_writeAnswers (p : List Byte) :
    (memWrite a p s).writeAnswers = s.writeAnswers.tail := by simp [memWrite]
@[simp] theorem memWrite_readAnswers (p : List Byte) :
    (memWrite a p s).readAnswers = s.readAnswers := by simp [memWrite]
@[simp] theorem memWrite_responses (p : List Byte) :
    (memWrite a p s).responses = s.responses := by simp [memWrite]
@[simp] theorem memWrite_history (p : List Byte) :
    (memWrite a p s).history = s.history ++ [.write a p s.nextAck] := by simp [memWrite]
@[simp] theorem memWrite_calls (p : List Byte) :
    (memWrite a p s).calls = s.calls ++ writeCalls a p s.nextAck := by simp [memWrite]

@[simp] theorem memRead_cfg (n : Nat) :
    (memRead a n s).cfg = s.cfg := by simp [memRead]
@[simp] theorem memRead_cfgWritten (n : Nat) :
    (memRead a n s).cfgWritten = s.cfgWritten := by simp [memRead]
@[simp] theorem memRead_addr (n : Nat) :
    (memRead a n s).addr = s.addr := by simp [memRead]
@[simp] theorem memRead_inFlight (n : Nat) :
    (memRead a n s).inFlight = s.inFlight := by simp [memRead]
@[simp] theorem memRead_phase (n : Nat) :
    (memRead a n s).phase = s.phase := by simp [memRead]
@[simp] theorem memRead_commands (n : Nat) :
    (memRead a n s).commands = s.commands := by simp [memRead]
@[simp] theorem memRead_writeAnswers (n : Nat) :
    (memRead a n s).writeAnswers = s.writeAnswers := by simp [memRead]
@[simp] theorem memRead_readAnswers (n : Nat) :
    (memRead a n s).readAnswers = s.readAnswers.tail := by simp [memRead]
@[simp] theorem memRead_responses (n : Nat) :
    (memRead a n s).responses = s.responses := by simp [memRead]
@[simp] theorem memRead_history (n : Nat) :
    (memRead a n s).history = s.history ++
      [.read a n s.nextDelivery.cnt (s.nextDelivery.consumed n)] := by simp [memRead]
@[simp] theorem memRead_calls (n : Nat) :
    (memRead a n s).calls = s.calls ++
      readCalls a n s.nextDelivery.cnt (s.nextDelivery.consumed n) := by simp [memRead]

theorem Delivery.consumed_good (d : Delivery) {n : Nat} (h : d.cnt = n) : d.consumed n = some (d.bytes n) := by
  simp [Delivery.consumed, h]

theorem Delivery.consumed_bad (d : Delivery) {n : Nat} (h : d.cnt ≠ n) : d.consumed n = none := by
  simp [Delivery.consumed, h]

theorem memRead_freeIndex_le (n : Nat) : s.freeIndex ≤ (memRead a n s).freeIndex := by
  change s.freeIndex ≤ s.takeDelivery.freeIndex
  rw [State.takeDelivery_freeIndex]
  split <;> omega

/-! ### Ending an operation -/

variable (k : SizeClass) (c : FailureCause)

@[simp] theorem raiseTransportFailure_cfg :
    (raiseTransportFailure k c s).cfg = s.cfg := rfl
@[simp] theorem raiseTransportFailure_cfgWritten :
    (raiseTransportFailure k c s).cfgWritten = s.cfgWritten := rfl
@[simp] theorem raiseTransportFailure_addr :
    (raiseTransportFailure k c s).addr = s.addr := rfl
@[simp] theorem raiseTransportFailure_inFlight :
    (raiseTransportFailure k c s).inFlight = none := rfl
@[simp] theorem raiseTransportFailure_phase :
    (raiseTransportFailure k c s).phase = s.phase := rfl
@[simp] theorem raiseTransportFailure_commands :
    (raiseTransportFailure k c s).commands = s.commands := rfl
@[simp] theorem raiseTransportFailure_writeAnswers :
    (raiseTransportFailure k c s).writeAnswers = s.writeAnswers := rfl
@[simp] theorem raiseTransportFailure_readAnswers :
    (raiseTransportFailure k c s).readAnswers = s.readAnswers := rfl
@[simp] theorem raiseTransportFailure_responses :
    (raiseTransportFailure k c s).responses = s.responses ++ [failResponse k s.freeIndex] := rfl
@[simp] theorem raiseTransportFailure_history :
    (raiseTransportFailure k c s).history = s.history := rfl
@[simp] theorem raiseTransportFailure_calls :
    (raiseTransportFailure k c s).calls = s.calls := rfl
@[simp] theorem raiseTransportFailure_freeIndex :
    (raiseTransportFailure k c s).freeIndex = s.freeIndex + 1 := rfl

@[simp] theorem State.observe_cfg (b : Byte) :
    (s.observe b).cfg = s.cfg := rfl
@[simp] theorem State.observe_cfgWritten (b : Byte) :
    (s.observe b).cfgWritten = s.cfgWritten := rfl
@[simp] theorem State.observe_addr (b : Byte) :
    (s.observe b).addr = s.addr := rfl
@[simp] theorem State.observe_inFlight (b : Byte) :
    (s.observe b).inFlight = s.inFlight := rfl
@[simp] theorem State.observe_phase (b : Byte) :
    (s.observe b).phase = if busy layout b then .pending else .complete := rfl
@[simp] theorem State.observe_commands (b : Byte) :
    (s.observe b).commands = s.commands := rfl
@[simp] theorem State.observe_writeAnswers (b : Byte) :
    (s.observe b).writeAnswers = s.writeAnswers := rfl
@[simp] theorem State.observe_readAnswers (b : Byte) :
    (s.observe b).readAnswers = s.readAnswers := rfl
@[simp] theorem State.observe_responses (b : Byte) :
    (s.observe b).responses = s.responses := rfl
@[simp] theorem State.observe_history (b : Byte) :
    (s.observe b).history = s.history := rfl
@[simp] theorem State.observe_calls (b : Byte) :
    (s.observe b).calls = s.calls := rfl
@[simp] theorem State.observe_freeIndex (b : Byte) :
    (s.observe b).freeIndex = s.freeIndex := rfl

theorem withCfg_written {kont : Byte → Host.Outcome State Fault Refusal} (h : s.cfgWritten = true) :
    withCfg s kont = kont s.cfg := by simp [withCfg, h]

theorem withCfg_unwritten {kont : Byte → Host.Outcome State Fault Refusal} (h : s.cfgWritten = false) :
    withCfg s kont = .refused .cfgUnwritten := by simp [withCfg, h]

/-- The three outcomes of one poll (R115): a wrong count, a hold, a completion. -/
theorem poll_cases (r : BlockingRead) :
    (s.nextDelivery.cnt ≠ frameLen r.sizeClass ∧
      poll r s = raiseTransportFailure r.sizeClass .shortRead (memRead s.addr (frameLen r.sizeClass) s)) ∨
    (s.nextDelivery.cnt = frameLen r.sizeClass ∧ busy layout (s.nextDelivery.status r.sizeClass) = true ∧
      poll r s = ((memRead s.addr (frameLen r.sizeClass) s).observe
        (s.nextDelivery.status r.sizeClass)).hold r) ∨
    (s.nextDelivery.cnt = frameLen r.sizeClass ∧ busy layout (s.nextDelivery.status r.sizeClass) = false ∧
      poll r s = ((memRead s.addr (frameLen r.sizeClass) s).observe
        (s.nextDelivery.status r.sizeClass)).respond (s.nextDelivery.response r.sizeClass)) := by
  by_cases h : s.nextDelivery.cnt = frameLen r.sizeClass
  · cases hb : busy layout (s.nextDelivery.status r.sizeClass) <;> simp [poll, h, hb]
  · simp [poll, h]

/-- The two outcomes of a single attempt (R112, R114). -/
theorem attempt_cases :
    (s.nextDelivery.cnt ≠ frameLen k ∧
      attempt k s = raiseTransportFailure k .shortRead (memRead s.addr (frameLen k) s)) ∨
    (s.nextDelivery.cnt = frameLen k ∧
      attempt k s = ((memRead s.addr (frameLen k) s).observe (s.nextDelivery.status k)).respond
        (s.nextDelivery.response k)) := by
  by_cases h : s.nextDelivery.cnt = frameLen k <;> simp [attempt, h]

/-- Everything a class-checked read can do (R110, R152). -/
theorem classChecked_cases (body : State → State) :
    (s.cfgWritten = false ∧ classChecked k body s = .refused .cfgUnwritten) ∨
    (s.cfgWritten = true ∧ sizeClass layout s.cfg ≠ k ∧
      classChecked k body s = .next (raiseTransportFailure k .mismatch s)) ∨
    (s.cfgWritten = true ∧ sizeClass layout s.cfg = k ∧ classChecked k body s = .next (body s)) := by
  by_cases hw : s.cfgWritten <;> by_cases hk : sizeClass layout s.cfg = k <;>
    simp [classChecked, withCfg, hw, hk]

@[simp] theorem poll_cfg (r : BlockingRead) :
    (poll r s).cfg = s.cfg := by
  obtain ⟨_, h⟩ | ⟨_, _, h⟩ | ⟨_, _, h⟩ := poll_cases s r <;> simp [h]
@[simp] theorem poll_cfgWritten (r : BlockingRead) :
    (poll r s).cfgWritten = s.cfgWritten := by
  obtain ⟨_, h⟩ | ⟨_, _, h⟩ | ⟨_, _, h⟩ := poll_cases s r <;> simp [h]
@[simp] theorem poll_addr (r : BlockingRead) :
    (poll r s).addr = s.addr := by
  obtain ⟨_, h⟩ | ⟨_, _, h⟩ | ⟨_, _, h⟩ := poll_cases s r <;> simp [h]
@[simp] theorem poll_commands (r : BlockingRead) :
    (poll r s).commands = s.commands := by
  obtain ⟨_, h⟩ | ⟨_, _, h⟩ | ⟨_, _, h⟩ := poll_cases s r <;> simp [h]
@[simp] theorem poll_writeAnswers (r : BlockingRead) :
    (poll r s).writeAnswers = s.writeAnswers := by
  obtain ⟨_, h⟩ | ⟨_, _, h⟩ | ⟨_, _, h⟩ := poll_cases s r <;> simp [h]
@[simp] theorem poll_history (r : BlockingRead) :
    (poll r s).history = s.history ++ [.read s.addr (frameLen r.sizeClass) s.nextDelivery.cnt
      (s.nextDelivery.consumed (frameLen r.sizeClass))] := by
  obtain ⟨_, h⟩ | ⟨_, _, h⟩ | ⟨_, _, h⟩ := poll_cases s r <;> simp [h]
@[simp] theorem poll_calls (r : BlockingRead) :
    (poll r s).calls = s.calls ++ readCalls s.addr (frameLen r.sizeClass) s.nextDelivery.cnt
      (s.nextDelivery.consumed (frameLen r.sizeClass)) := by
  obtain ⟨_, h⟩ | ⟨_, _, h⟩ | ⟨_, _, h⟩ := poll_cases s r <;> simp [h]
@[simp] theorem poll_readAnswers (r : BlockingRead) : (poll r s).readAnswers = s.readAnswers.tail := by
  obtain ⟨_, h⟩ | ⟨_, _, h⟩ | ⟨_, _, h⟩ := poll_cases s r <;> simp [h]
@[simp] theorem attempt_readAnswers : (attempt k s).readAnswers = s.readAnswers.tail := by
  obtain ⟨_, h⟩ | ⟨_, h⟩ := attempt_cases s k <;> simp [h]
@[simp] theorem attempt_cfg :
    (attempt k s).cfg = s.cfg := by
  obtain ⟨_, h⟩ | ⟨_, h⟩ := attempt_cases s k <;> simp [h]
@[simp] theorem attempt_cfgWritten :
    (attempt k s).cfgWritten = s.cfgWritten := by
  obtain ⟨_, h⟩ | ⟨_, h⟩ := attempt_cases s k <;> simp [h]
@[simp] theorem attempt_addr :
    (attempt k s).addr = s.addr := by
  obtain ⟨_, h⟩ | ⟨_, h⟩ := attempt_cases s k <;> simp [h]
@[simp] theorem attempt_inFlight :
    (attempt k s).inFlight = none := by
  obtain ⟨_, h⟩ | ⟨_, h⟩ := attempt_cases s k <;> simp [h]
@[simp] theorem attempt_commands :
    (attempt k s).commands = s.commands := by
  obtain ⟨_, h⟩ | ⟨_, h⟩ := attempt_cases s k <;> simp [h]
@[simp] theorem attempt_writeAnswers :
    (attempt k s).writeAnswers = s.writeAnswers := by
  obtain ⟨_, h⟩ | ⟨_, h⟩ := attempt_cases s k <;> simp [h]
@[simp] theorem attempt_history :
    (attempt k s).history = s.history ++ [.read s.addr (frameLen k) s.nextDelivery.cnt
      (s.nextDelivery.consumed (frameLen k))] := by
  obtain ⟨_, h⟩ | ⟨_, h⟩ := attempt_cases s k <;> simp [h]
@[simp] theorem attempt_calls :
    (attempt k s).calls = s.calls ++ readCalls s.addr (frameLen k) s.nextDelivery.cnt
      (s.nextDelivery.consumed (frameLen k)) := by
  obtain ⟨_, h⟩ | ⟨_, h⟩ := attempt_cases s k <;> simp [h]
@[simp] theorem sendStart_cfg :
    (sendStart s).cfg = s.cfg := by
  unfold sendStart; split <;> simp_all
@[simp] theorem sendStart_cfgWritten :
    (sendStart s).cfgWritten = s.cfgWritten := by
  unfold sendStart; split <;> simp_all
@[simp] theorem sendStart_addr :
    (sendStart s).addr = s.addr := by
  unfold sendStart; split <;> simp_all
@[simp] theorem sendStart_inFlight :
    (sendStart s).inFlight = none := by
  unfold sendStart; split <;> simp_all
@[simp] theorem sendStart_phase :
    (sendStart s).phase = if s.nextAck then .requested else s.phase := by
  unfold sendStart; split <;> simp_all
@[simp] theorem sendStart_commands :
    (sendStart s).commands = s.commands := by
  unfold sendStart; split <;> simp_all
@[simp] theorem sendStart_writeAnswers :
    (sendStart s).writeAnswers = s.writeAnswers.tail := by
  unfold sendStart; split <;> simp_all
@[simp] theorem sendStart_readAnswers :
    (sendStart s).readAnswers = s.readAnswers := by
  unfold sendStart; split <;> simp_all
@[simp] theorem sendStart_responses :
    (sendStart s).responses = s.responses ++ [.bool s.nextAck] := by
  unfold sendStart; split <;> simp_all
@[simp] theorem sendStart_history :
    (sendStart s).history = s.history ++ [.write s.addr [startByte layout s.cfg] s.nextAck] := by
  unfold sendStart; split <;> simp_all
@[simp] theorem sendStart_calls :
    (sendStart s).calls = s.calls ++ writeCalls s.addr [startByte layout s.cfg] s.nextAck := by
  unfold sendStart; split <;> simp_all

end Sys2Proof.Machine
end

