-- ==== Sys2Proof/Laws/Step.lean ====
section
/-! SUPPORT. What a command and a step can do, said once: later proofs split on these instead of unfolding. -/

namespace Sys2Proof.Machine
variable {s t : State}

theorem decodeCommand_isCommand {w : CommandWord} {i : Instr} (h : decodeCommand w = .ok i) :
    i.isCommand = true := by
  unfold decodeCommand operation at h
  split at h <;> cases h <;> rfl

theorem decodeCommand_error {w : CommandWord} {e : DecodeError} (h : decodeCommand w = .error e) :
    9 ≤ (opField w).toNat := by
  by_contra hlt
  unfold decodeCommand operation at h
  generalize (opField w).toNat = n at h hlt
  interval_cases n <;> cases h

/-- If a command answers a next state, it is the one its rule gives (R90 to R114). -/
theorem exec_command_cases {i : Instr} (hi : i.isCommand = true) (h : exec i s = .next t) :
    (i = .test ∧ t = (memWrite s.addr [] s).respond (.bool s.nextAck)) ∨
    (∃ b, i = .configure b ∧ t = (s.setCfg b).respond .none) ∨
    (s.cfgWritten = true ∧
      ((i = .getcfg ∧ t = s.respond (.byte s.cfg)) ∨
       (i = .start ∧ t = sendStart s) ∨
       (∃ v, i = .startch v ∧ t = sendStart (s.setCfg (chanAmend layout s.cfg v))) ∨
       (∃ k, sizeClass layout s.cfg ≠ k ∧ t = raiseTransportFailure k .mismatch s) ∨
       (∃ r, sizeClass layout s.cfg = BlockingRead.sizeClass r ∧ t = poll r s) ∨
       (∃ k, sizeClass layout s.cfg = k ∧ t = attempt k s))) := by
  have read : ∀ k (body : State → State), classChecked k body s = .next t →
      s.cfgWritten = true ∧ ((sizeClass layout s.cfg ≠ k ∧ t = raiseTransportFailure k .mismatch s) ∨
        (sizeClass layout s.cfg = k ∧ t = body s)) := by
    intro k body hb
    obtain ⟨_, e⟩ | ⟨hw, hk, e⟩ | ⟨hw, hk, e⟩ := classChecked_cases s k body <;> rw [e] at hb <;> cases hb
    · exact ⟨hw, .inl ⟨hk, rfl⟩⟩
    · exact ⟨hw, .inr ⟨hk, rfl⟩⟩
  have cfg : ∀ kont : Byte → Host.Outcome State Fault Refusal, withCfg s kont = .next t →
      s.cfgWritten = true ∧ kont s.cfg = .next t := by
    intro kont hk
    unfold withCfg at hk
    split at hk
    · exact ⟨‹_›, hk⟩
    · cases hk
  cases i with
  | test => cases h; exact .inl ⟨rfl, rfl⟩
  | configure b => cases h; exact .inr (.inl ⟨b, rfl, rfl⟩)
  | getcfg =>
    obtain ⟨hw, e⟩ := cfg (fun c => .next (s.respond (.byte c))) h
    cases e
    exact .inr (.inr ⟨hw, .inl ⟨rfl, rfl⟩⟩)
  | start =>
    obtain ⟨hw, e⟩ := cfg (fun _ => .next (sendStart s)) h
    cases e
    exact .inr (.inr ⟨hw, .inr (.inl ⟨rfl, rfl⟩)⟩)
  | startch v =>
    obtain ⟨hw, e⟩ := cfg (fun c => .next (sendStart (s.setCfg (chanAmend layout c v)))) h
    cases e
    exact .inr (.inr ⟨hw, .inr (.inr (.inl ⟨v, rfl, rfl⟩))⟩)
  | get16 =>
    obtain ⟨hw, ⟨hk, e⟩ | ⟨hk, e⟩⟩ := read _ _ h
    · exact .inr (.inr ⟨hw, .inr (.inr (.inr (.inl ⟨_, hk, e⟩)))⟩)
    · exact .inr (.inr ⟨hw, .inr (.inr (.inr (.inr (.inl ⟨.get16, hk, e⟩))))⟩)
  | get18 =>
    obtain ⟨hw, ⟨hk, e⟩ | ⟨hk, e⟩⟩ := read _ _ h
    · exact .inr (.inr ⟨hw, .inr (.inr (.inr (.inl ⟨_, hk, e⟩)))⟩)
    · exact .inr (.inr ⟨hw, .inr (.inr (.inr (.inr (.inl ⟨.get18, hk, e⟩))))⟩)
  | chk16 =>
    obtain ⟨hw, ⟨hk, e⟩ | ⟨hk, e⟩⟩ := read _ _ h
    · exact .inr (.inr ⟨hw, .inr (.inr (.inr (.inl ⟨_, hk, e⟩)))⟩)
    · exact .inr (.inr ⟨hw, .inr (.inr (.inr (.inr (.inr ⟨_, hk, e⟩))))⟩)
  | chk18 =>
    obtain ⟨hw, ⟨hk, e⟩ | ⟨hk, e⟩⟩ := read _ _ h
    · exact .inr (.inr ⟨hw, .inr (.inr (.inr (.inl ⟨_, hk, e⟩)))⟩)
    · exact .inr (.inr ⟨hw, .inr (.inr (.inr (.inr (.inr ⟨_, hk, e⟩))))⟩)
  | frameCfgByte _ _ _ _ _ => cases hi
  | frameCfgWrite _ _ _ _ => cases hi
  | frameResult2 _ _ _ => cases hi
  | frameResult3 _ _ _ _ => cases hi
  | frameStatus _ _ => cases hi

/-- If a step answers a next state, it polled, or waited, or ran the operation of the next command. -/
theorem step_cases (h : step s = .next t) :
    (∃ r, s.inFlight = some r ∧ t = poll r s) ∨
    (s.inFlight = none ∧ s.commands = [] ∧ t = s) ∨
    (s.inFlight = none ∧ ∃ w rest i, s.commands = w :: rest ∧ decodeCommand w = .ok i ∧
      exec i { s with commands := rest } = .next t) := by
  unfold step fetchCommand at h
  cases hf : s.inFlight with
  | some r => rw [hf] at h; cases h; exact .inl ⟨r, rfl, rfl⟩
  | none =>
    rw [hf] at h
    cases hc : s.commands with
    | nil => rw [hc] at h; cases h; exact .inr (.inl ⟨rfl, rfl, rfl⟩)
    | cons w rest =>
      rw [hc] at h
      cases hd : decodeCommand w with
      | ok i => simp only [hd] at h; exact .inr (.inr ⟨rfl, w, rest, i, rfl, hd, h⟩)
      | error e => simp only [hd] at h; cases h

end Sys2Proof.Machine
end

