-- ==== Sys2Proof/Laws/Exec.lean ====
section
/-! SUPPORT. Each operation's meaning as one equation per case, over the shared operations. -/

namespace Sys2Proof.Machine
variable (s : State)

theorem exec_test : exec .test s = .next ((memWrite s.addr [] s).respond (.bool s.nextAck)) := rfl

theorem exec_configure (b : Byte) : exec (.configure b) s = .next ((s.setCfg b).respond .none) := rfl

/-- The seven operations that read `CFG` are refused while it is unwritten (R152). -/
theorem exec_unwritten (i : Instr) (hi : i.isCommand = true) (ht : i ≠ .test) (hc : ∀ b, i ≠ .configure b)
    (h : s.cfgWritten = false) : exec i s = .refused .cfgUnwritten := by
  cases i with
  | test => exact absurd rfl ht
  | configure b => exact absurd rfl (hc b)
  | getcfg => simp [exec, execGetcfg, withCfg, h]
  | start => simp [exec, execStart, withCfg, h]
  | startch v => simp [exec, execStartch, withCfg, h]
  | get16 => simp [exec, execGet16, classChecked, withCfg, h]
  | chk16 => simp [exec, execChk16, classChecked, withCfg, h]
  | get18 => simp [exec, execGet18, classChecked, withCfg, h]
  | chk18 => simp [exec, execChk18, classChecked, withCfg, h]
  | frameCfgByte _ _ _ _ _ => cases hi
  | frameCfgWrite _ _ _ _ => cases hi
  | frameResult2 _ _ _ => cases hi
  | frameResult3 _ _ _ _ => cases hi
  | frameStatus _ _ => cases hi

section
variable (h : s.cfgWritten = true)
include h

theorem exec_getcfg : exec .getcfg s = .next (s.respond (.byte s.cfg)) := by
  simp [exec, execGetcfg, withCfg, h]

theorem exec_start : exec .start s = .next (sendStart s) := by
  simp [exec, execStart, withCfg, h]

theorem exec_startch (v : Byte) :
    exec (.startch v) s = .next (sendStart (s.setCfg (chanAmend layout s.cfg v))) := by
  simp [exec, execStartch, withCfg, h]

theorem classChecked_match {k : SizeClass} (body : State → State) (hk : sizeClass layout s.cfg = k) :
    classChecked k body s = .next (body s) := by simp [classChecked, withCfg, h, hk]

theorem classChecked_mismatch {k : SizeClass} (body : State → State) (hk : sizeClass layout s.cfg ≠ k) :
    classChecked k body s = .next (raiseTransportFailure k .mismatch s) := by
  simp [classChecked, withCfg, h, hk]

theorem exec_get16 (hk : sizeClass layout s.cfg = .two) : exec .get16 s = .next (poll .get16 s) :=
  classChecked_match s h _ hk

theorem exec_get18 (hk : sizeClass layout s.cfg = .three) : exec .get18 s = .next (poll .get18 s) :=
  classChecked_match s h _ hk

theorem exec_chk16 (hk : sizeClass layout s.cfg = .two) : exec .chk16 s = .next (attempt .two s) :=
  classChecked_match s h _ hk

theorem exec_chk18 (hk : sizeClass layout s.cfg = .three) : exec .chk18 s = .next (attempt .three s) :=
  classChecked_match s h _ hk

theorem exec_get16_mismatch (hk : sizeClass layout s.cfg ≠ .two) :
    exec .get16 s = .next (raiseTransportFailure .two .mismatch s) := classChecked_mismatch s h _ hk

theorem exec_get18_mismatch (hk : sizeClass layout s.cfg ≠ .three) :
    exec .get18 s = .next (raiseTransportFailure .three .mismatch s) := classChecked_mismatch s h _ hk

theorem exec_chk16_mismatch (hk : sizeClass layout s.cfg ≠ .two) :
    exec .chk16 s = .next (raiseTransportFailure .two .mismatch s) := classChecked_mismatch s h _ hk

theorem exec_chk18_mismatch (hk : sizeClass layout s.cfg ≠ .three) :
    exec .chk18 s = .next (raiseTransportFailure .three .mismatch s) := classChecked_mismatch s h _ hk

end

end Sys2Proof.Machine
end

