-- ==== Sys2Proof/Laws/Layout.lean ====
section
/-! SUPPORT. Fields under a layout R5 allows: a code in place lies under its mask, is read back by mask and
shift, and meets no other field's mask. -/

namespace Sys2Proof.Machine

/-- A 1-bit code in place lies under its mask. -/
theorem inPlace_and_run_one {s : Nat} (hs : s + 1 ≤ 8) (code : BitVec 1) :
    inPlace code s &&& run 1 s = inPlace code s := by
  have h : ∀ s : Fin 8, ∀ code : BitVec 1, inPlace code s &&& run 1 s = inPlace code s := by decide
  exact h ⟨s, by omega⟩ code

/-- A 2-bit code in place lies under its mask. -/
theorem inPlace_and_run_two {s : Nat} (hs : s + 2 ≤ 8) (code : BitVec 2) :
    inPlace code s &&& run 2 s = inPlace code s := by
  have h : ∀ s : Fin 7, ∀ code : BitVec 2, inPlace code s &&& run 2 s = inPlace code s := by decide
  exact h ⟨s, by omega⟩ code

/-- A 1-bit code is read back from its place. -/
theorem inPlace_shiftRight_one {s : Nat} (hs : s + 1 ≤ 8) (code : BitVec 1) :
    (inPlace code s >>> s).setWidth 1 = code := by
  have h : ∀ s : Fin 8, ∀ code : BitVec 1, (inPlace code s >>> s.val).setWidth 1 = code := by decide
  exact h ⟨s, by omega⟩ code

/-- A 2-bit code is read back from its place. -/
theorem inPlace_shiftRight_two {s : Nat} (hs : s + 2 ≤ 8) (code : BitVec 2) :
    (inPlace code s >>> s).setWidth 2 = code := by
  have h : ∀ s : Fin 7, ∀ code : BitVec 2, (inPlace code s >>> s.val).setWidth 2 = code := by decide
  exact h ⟨s, by omega⟩ code

/-- A 1-bit field taken out of a byte and put back is the byte under the mask. -/
theorem inPlace_field_one {s : Nat} (hs : s + 1 ≤ 8) (b : Byte) :
    inPlace (field 1 b (run 1 s) s) s = b &&& run 1 s := by
  have h : ∀ s : Fin 8, ∀ b : Byte, inPlace (field 1 b (run 1 s) s) s = b &&& run 1 s := by decide
  exact h ⟨s, by omega⟩ b

/-- A 2-bit field taken out of a byte and put back is the byte under the mask. -/
theorem inPlace_field_two {s : Nat} (hs : s + 2 ≤ 8) (b : Byte) :
    inPlace (field 2 b (run 2 s) s) s = b &&& run 2 s := by
  have h : ∀ s : Fin 7, ∀ b : Byte, inPlace (field 2 b (run 2 s) s) s = b &&& run 2 s := by decide
  exact h ⟨s, by omega⟩ b

/-- A byte lying under one mask has nothing under a mask disjoint from it. -/
theorem and_eq_zero_of_disjoint {x m n : Byte} (hx : x &&& m = x) (h : m &&& n = 0) : x &&& n = 0 := by
  rw [← hx, BitVec.and_assoc, h]
  simp

/-- A byte lying under a mask has nothing outside it. -/
theorem and_not_eq_zero {x m : Byte} (hx : x &&& m = x) : x &&& ~~~m = 0 :=
  and_eq_zero_of_disjoint hx (by ext i hi; simp)

variable {L : Layout} (h : L.wf = true)
include h

theorem wf_disjoint : L.masksDisjoint = true := by
  simp only [Layout.wf, Bool.and_eq_true] at h; exact h.1.1.1.1

theorem wf_cover : L.rdyMask ||| L.chMask ||| L.modeMask ||| L.sizeMask ||| L.gainMask = 0xFF := by
  simp only [Layout.wf, Layout.masksCover, Bool.and_eq_true, beq_iff_eq] at h; exact h.1.1.1.2

theorem wf_rdy : L.rdyShift + 1 ≤ 8 ∧ L.rdyMask = run 1 L.rdyShift := by
  simp only [Layout.wf, Layout.masksAreRuns, Bool.and_eq_true, beq_iff_eq, decide_eq_true_eq] at h
  exact h.1.1.2.1.1.1.1

theorem wf_ch : L.chShift + 2 ≤ 8 ∧ L.chMask = run 2 L.chShift := by
  simp only [Layout.wf, Layout.masksAreRuns, Bool.and_eq_true, beq_iff_eq, decide_eq_true_eq] at h
  exact h.1.1.2.1.1.1.2

theorem wf_mode : L.modeShift + 1 ≤ 8 ∧ L.modeMask = run 1 L.modeShift := by
  simp only [Layout.wf, Layout.masksAreRuns, Bool.and_eq_true, beq_iff_eq, decide_eq_true_eq] at h
  exact h.1.1.2.1.1.2

theorem wf_size : L.sizeShift + 2 ≤ 8 ∧ L.sizeMask = run 2 L.sizeShift := by
  simp only [Layout.wf, Layout.masksAreRuns, Bool.and_eq_true, beq_iff_eq, decide_eq_true_eq] at h
  exact h.1.1.2.1.2

theorem wf_gain : L.gainShift + 2 ≤ 8 ∧ L.gainMask = run 2 L.gainShift := by
  simp only [Layout.wf, Layout.masksAreRuns, Bool.and_eq_true, beq_iff_eq, decide_eq_true_eq] at h
  exact h.1.1.2.2

theorem wf_size18 : L.size18 ≠ L.size12 ∧ L.size18 ≠ L.size14 ∧ L.size18 ≠ L.size16 := by
  simp only [Layout.wf, Layout.size18Distinct, Bool.and_eq_true, bne_iff_ne] at h
  exact ⟨h.1.2.1.1, h.1.2.1.2, h.1.2.2⟩

theorem rdy_inPlace (c : BitVec 1) : inPlace c L.rdyShift &&& L.rdyMask = inPlace c L.rdyShift := by
  rw [(wf_rdy h).2]; exact inPlace_and_run_one (wf_rdy h).1 c

theorem ch_inPlace (c : BitVec 2) : inPlace c L.chShift &&& L.chMask = inPlace c L.chShift := by
  rw [(wf_ch h).2]; exact inPlace_and_run_two (wf_ch h).1 c

theorem mode_inPlace (c : BitVec 1) : inPlace c L.modeShift &&& L.modeMask = inPlace c L.modeShift := by
  rw [(wf_mode h).2]; exact inPlace_and_run_one (wf_mode h).1 c

theorem size_inPlace (c : BitVec 2) : inPlace c L.sizeShift &&& L.sizeMask = inPlace c L.sizeShift := by
  rw [(wf_size h).2]; exact inPlace_and_run_two (wf_size h).1 c

theorem gain_inPlace (c : BitVec 2) : inPlace c L.gainShift &&& L.gainMask = inPlace c L.gainShift := by
  rw [(wf_gain h).2]; exact inPlace_and_run_two (wf_gain h).1 c

end Sys2Proof.Machine
end

