-- ==== Sys2Proof/Laws/PerInstr.lean ====
section
/-! SUPPORT. The per-instruction family `EncodeFits`: the bits of a row fit in its format's width (R60, R64, R70
to R72, R75), so no row's encoding spills into a neighbour's. -/

namespace Sys2Proof.Laws.EncodeFits
open Sys2Proof.Machine

/-- The encoding of `i` is a number below `2 ^ width` of its format. -/
def Statement (i : Instr) : Prop := (encode i).toNat < 2 ^ i.format.width

/-- A command word has 12 bits. -/
theorem commandWord_fits (op : BitVec 4) (imm8 : Byte) : ((commandWord op imm8).setWidth 32).toNat < 2 ^ 12 := by
  rw [BitVec.toNat_setWidth_of_le (by decide)]
  exact (commandWord op imm8).isLt

/-- A one-byte row has 8 bits. -/
theorem byte_fits (b : Byte) : (b.setWidth 32).toNat < 2 ^ 8 := by
  rw [BitVec.toNat_setWidth_of_le (by decide)]
  exact b.isLt

theorem test : Statement .test := commandWord_fits _ _
theorem configure (imm8 : Byte) : Statement (.configure imm8) := commandWord_fits _ _
theorem getcfg : Statement .getcfg := commandWord_fits _ _
theorem start : Statement .start := commandWord_fits _ _
theorem startch (imm8 : Byte) : Statement (.startch imm8) := commandWord_fits _ _
theorem get16 : Statement .get16 := commandWord_fits _ _
theorem chk16 : Statement .chk16 := commandWord_fits _ _
theorem get18 : Statement .get18 := commandWord_fits _ _
theorem chk18 : Statement .chk18 := commandWord_fits _ _

theorem frameCfgByte (rdy : BitVec 1) (ch : BitVec 2) (mode : BitVec 1) (size gain : BitVec 2) :
    Statement (.frameCfgByte rdy ch mode size gain) := byte_fits _

theorem frameCfgWrite (ch : BitVec 2) (mode : BitVec 1) (size gain : BitVec 2) :
    Statement (.frameCfgWrite ch mode size gain) := byte_fits _

theorem frameResult2 (d0 d1 status : Byte) : Statement (.frameResult2 d0 d1 status) := by
  show ((d0 ++ d1 ++ status).setWidth 32).toNat < 2 ^ 24
  rw [BitVec.toNat_setWidth_of_le (by decide)]
  exact (d0 ++ d1 ++ status).isLt

theorem frameResult3 (d0 d1 d2 status : Byte) : Statement (.frameResult3 d0 d1 d2 status) :=
  (d0 ++ d1 ++ d2 ++ status).isLt

theorem frameStatus (ready : BitVec 1) (other : BitVec 7) : Statement (.frameStatus ready other) := by
  show ((ready ++ other).setWidth 32).toNat < 2 ^ 8
  rw [BitVec.toNat_setWidth_of_le (by decide)]
  exact (ready ++ other).isLt

end Sys2Proof.Laws.EncodeFits
end

