-- ==== Sys2Proof/Laws/Run.lean ====
section
/-! SUPPORT. Runs of many steps, the induction over them packaged once. -/

namespace Sys2Proof.Machine

theorem coreRun_next (M : Host.Core) {s s' : M.State} {k : Nat} (h : M.step s = .next s') :
    M.run (k + 1) s = M.run k s' := by simp only [Host.Core.run, h]

theorem coreRun_refused (M : Host.Core) {s : M.State} {r : M.Refusal} {k : Nat} (h : M.step s = .refused r) :
    M.run (k + 1) s = .refused r := by simp only [Host.Core.run, h]

variable {s s' : State} {k : Nat}

@[simp] theorem runSteps_zero : runSteps 0 s = .next s := rfl

theorem runSteps_succ (h : step s = .next s') : runSteps (k + 1) s = runSteps k s' := coreRun_next core h

theorem runSteps_refused {r : Refusal} (h : step s = .refused r) : runSteps (k + 1) s = .refused r :=
  coreRun_refused core h

/-- A run that answers a next state is one step that does, and the rest of the run. -/
theorem runSteps_succ_cases {t : State} (h : runSteps (k + 1) s = .next t) :
    ∃ u, step s = .next u ∧ runSteps k u = .next t := by
  cases e : step s with
  | next u => exact ⟨u, rfl, by rw [← runSteps_succ e]; exact h⟩
  | fault r => cases r
  | refused r => rw [runSteps_refused e] at h; cases h

theorem runSteps_add : ∀ {j : Nat} {s t : State}, runSteps j s = .next t → runSteps (j + k) s = runSteps k t
  | 0, s, t, h => by cases h; simp
  | j + 1, s, t, h => by
    obtain ⟨u, e, h⟩ := runSteps_succ_cases h
    rw [show j + 1 + k = (j + k) + 1 by omega, runSteps_succ e]
    exact runSteps_add h

/-- A property that every step keeps holds after every run of a state that has it. -/
theorem runSteps_keeps {P : State → Prop} (hP : ∀ a b, P a → step a = .next b → P b) :
    ∀ {j : Nat} {s t : State}, P s → runSteps j s = .next t → P t
  | 0, _, _, hs, h => by cases h; exact hs
  | _ + 1, _, _, hs, h => by
    obtain ⟨_, e, h⟩ := runSteps_succ_cases h
    exact runSteps_keeps hP (hP _ _ hs e) h

end Sys2Proof.Machine
end

