-- ==== Sys2Proof/Tests/Slice0.lean ====
section
/-! SUPPORT. The author's own tests: each check of `WellFormed` refuses an ill-formed term, words written out from
the spec's encodings decode to their instruction, a few vectors of spec/95_test_vectors.md run for one step,
and a witness for the hypotheses of every statement that has some. -/

namespace Sys2Proof.Tests
open Sys2Proof Sys2Proof.Machine

/-! ### Helpers -/

/-- The next state of an outcome, if it is one. -/
def nextOf : Host.Outcome State Fault Refusal → Option State
  | .next s => some s
  | .fault _ => none
  | .refused _ => none

/-- A block constructed with `CFG_RESET` left open (R32). -/
def unwritten : State := State.construct 0x68 none

/-- A configured idle block with a script of answers. -/
def ready (c : Byte) (ws : List Bool) (rs : List Delivery) : State :=
  { State.reset with cfg := c, cfgWritten := true, writeAnswers := ws, readAnswers := rs }

/-- The same block with a blocking read in flight. -/
def polling (c : Byte) (r : BlockingRead) (rs : List Delivery) : State :=
  { ready c [] rs with inFlight := some r }

/-- The same block with commands waiting. -/
def given (c : Byte) (ws : List Bool) (rs : List Delivery) (cs : List CommandWord) : State :=
  { ready c ws rs with commands := cs }

/-! ### Well-formedness -/

/-- R5: the default layout meets every constraint. -/
theorem test_layout_wf : layout.wf = true := by decide

/-- R5: another choice of positions and codes is as good. -/
def otherLayout : Layout :=
  { layout with rdyMask := 0x01, chMask := 0x06, modeMask := 0x08, sizeMask := 0x30, gainMask := 0xC0, rdyShift := 0,
                chShift := 1, modeShift := 3, sizeShift := 4, gainShift := 6, size16 := 3, size18 := 0, size12 := 2,
                rdyInitiate := 0 }

theorem test_otherLayout_wf : otherLayout.wf = true := by decide

/-- R5: two masks that share a bit. -/
theorem test_overlapping_masks_refused :
    Layout.masksDisjoint { layout with chMask := 0x30, chShift := 4 } = false ∧
    Layout.wf { layout with chMask := 0x30, chShift := 4 } = false := by decide

/-- R5: masks that leave a bit out. -/
theorem test_uncovered_bit_refused :
    Layout.masksCover { layout with gainMask := 0x01 } = false ∧
    Layout.wf { layout with gainMask := 0x01 } = false := by decide

/-- R5: a mask that is no run of adjacent bits at its shift. -/
theorem test_split_mask_refused :
    Layout.masksAreRuns { layout with chMask := 0x50, modeMask := 0x20, modeShift := 5 } = false ∧
    Layout.wf { layout with chMask := 0x50, modeMask := 0x20, modeShift := 5 } = false ∧
    Layout.masksAreRuns { layout with sizeShift := 3 } = false := by decide

/-- R5: `SIZE_18` equal to another resolution's code. -/
theorem test_ambiguous_size_refused :
    Layout.size18Distinct { layout with size18 := 2 } = false ∧ Layout.wf { layout with size18 := 2 } = false ∧
    Layout.size18Distinct { layout with size12 := 3 } = false ∧
    Layout.size18Distinct { layout with size14 := 3 } = false := by decide

/-- R5: a ready mask of two bits. -/
theorem test_wide_ready_mask_refused :
    Layout.rdyOneBit { layout with rdyMask := 0xC0 } = false ∧ Layout.wf { layout with rdyMask := 0xC0 } = false := by
  decide

/-- R63: the last named code and the first and last reserved ones. -/
theorem test_reserved_word_ill_formed :
    commandWordWf 0x8FF = true ∧ commandWordWf 0x900 = false ∧ commandWordWf 0xFFF = false := by decide

/-! ### Decoding: words written out from R60 to R62, R64, R70 to R72, R75 -/

/-- R61: `op` in bits 11:8, `imm8` in bits 7:0 (VO-3, VO-4, VO-7). -/
theorem test_decode_probe_config :
    decodeCommand 0b000010101011 = .ok .test ∧ decodeCommand 0b000100101000 = .ok (.configure 0x28) ∧
    decodeCommand 0b001000000000 = .ok .getcfg := by decide

/-- R61 (VW-1, VW-4). -/
theorem test_decode_start :
    decodeCommand 0b001100000000 = .ok .start ∧ decodeCommand 0b010001000000 = .ok (.startch 0x40) := by decide

/-- R61 (VR-1, VR-9, VR-14, VR-19). -/
theorem test_decode_result :
    decodeCommand 0b010100000000 = .ok .get16 ∧ decodeCommand 0b011000000000 = .ok .chk16 ∧
    decodeCommand 0b011100000000 = .ok .get18 ∧ decodeCommand 0b100000000000 = .ok .chk18 := by decide

/-- R64, R70, R75: `r cc m ss gg`, `1 cc m ss gg`, `r xxxxxxx` (VP-4, VS-2). -/
theorem test_decode_byte_frames :
    decode .cfgByte 0b01101101 = .ok (.frameCfgByte 0 3 0 3 1) ∧
    decode .wireWr1 0b10101000 = .ok (.frameCfgWrite 1 0 2 0) ∧
    decode .statusByte 0b10101000 = .ok (.frameStatus 1 0x28) := by decide

/-- R71, R72: first byte received uppermost (S3, S4). -/
theorem test_decode_result_frames :
    decode .wireRd3 0b000100100011010000000000 = .ok (.frameResult2 0x12 0x34 0x00) ∧
    decode .wireRd4 0b00000001001000110100010100001100 = .ok (.frameResult3 0x01 0x23 0x45 0x0C) := by decide

/-- R63, R70: what is refused, by name. -/
theorem test_decode_refuses :
    decodeCommand 0x900 = .error (.reservedOpcode 9) ∧ decodeCommand 0xFFF = .error (.reservedOpcode 15) ∧
    decode .wireWr1 0x28 = .error .readyNotInitiate ∧ decode .cmd12 0x1000 = .error (.tooWide .cmd12) := by decide

/-- The table's rows as the host asks for them: `nbits` in whole bytes (log entry 15). -/
theorem test_table_rows :
    decodeTableWord 16 0x400 = some (.startch 0) ∧ decodeTableWord 16 0x900 = none ∧
    decodeTableWord 8 0x80 = some (.frameCfgWrite 0 0 0 0) ∧ decodeTableWord 8 0 = some (.frameCfgByte 0 0 0 0 0) ∧
    decodeTableWord 24 0x123400 = some (.frameResult2 0x12 0x34 0) ∧
    decodeTableWord 32 0x01234500 = some (.frameResult3 0x01 0x23 0x45 0) := by decide

/-- R61: every named code is well formed as a word, as many as the spec names. -/
theorem test_named_codes_well_formed :
    (List.range 16).countP (fun n => commandWordWf (commandWord (BitVec.ofNat 4 n) 0xFF)) = operationCodes := by
  decide

/-- The mnemonic a row is listed under in the table. -/
theorem test_mnemonics : Instr.mnemonic (.startch 0x40) = "STARTCH" ∧ Instr.mnemonic .chk18 = "CHK18" := by
  decide

/-- R60: a word placed by `withFetchWord` is what the first step after reset runs (VO-4). -/
theorem test_fetch_word :
    (nextOf (step (State.reset.withFetchWord 16 0x128))).map (·.cfg) = some 0x28 ∧
    (nextOf (step (State.reset.withFetchWord 12 0x128))).map (·.cfg) = some 0x28 ∧
    (nextOf (step (State.reset.withFetchWord 32 0x0123450C))).map (·.responses) = some [.s32 0x0C 0x00012345] := by
  decide

/-- R92, R152: the first command after reset reads the byte `CFG` holds, whatever it is (log entry 1). -/
theorem test_getcfg_from_reset :
    (nextOf (step (State.reset.withFetchWord 12 0x200))).map (·.responses) = some [.byte Config.cfgReset] := rfl

/-! ### The codec functions -/

/-- VP-2, VP-5, VP-6. -/
theorem test_pack : pack layout 1 0 1 0 0 = 0x90 ∧ pack layout 1 3 1 3 3 = 0xFF ∧ pack layout 0 2 1 1 2 = 0x56 := by
  decide

/-- VC-7, VC-8, VC-9. -/
theorem test_chan_amend :
    chanAmend layout 0xFF 0x00 = 0x9F ∧ chanAmend layout 0x00 0x9F = 0x00 ∧ chanAmend layout 0x8C 0x20 = 0xAC := by
  decide

/-- VZ-3, VZ-4, VZ-7, VZ-9. -/
theorem test_size_class :
    sizeClass layout 0x08 = .two ∧ sizeClass layout 0x0C = .three ∧ sizeClass layout 0xF3 = .two ∧
    sizeClass layout 0x0B = .two := by decide

/-- R69: the frame is the data bytes and one status byte. -/
theorem test_frame_len :
    frameLen .two = dataBytes .two + 1 ∧ frameLen .three = dataBytes .three + 1 := by decide

/-- V16-5, V16-12, V16-13. -/
theorem test_decode16 :
    (decode16 0x80 0x00).toInt = -32768 ∧ (decode16 0x08 0x00).toInt = 2048 ∧
    (decode16 0x34 0x12).toInt = 13330 := by decide

/-- V18-5, V18-6, V18-10, V18-12. -/
theorem test_decode18 :
    (decode18 0xFE 0x00 0x00).toInt = -131072 ∧ (decode18 0x02 0x00 0x00).toInt = 131072 ∧
    (decode18 0x80 0x00 0x00).toInt = -8388608 ∧ (decode18 0x45 0x23 0x01).toInt = 4530945 := by decide

/-- VT-5, VT-6, VT-7. -/
theorem test_status_class :
    statusClass layout 0x7F = .complete ∧ statusClass layout 0xFE = .busy ∧ statusClass layout 0xFF = .fail := by
  decide

/-- R79, R80: the answers of a script in order, and the two pseudo-instructions. -/
theorem test_script_and_assembly :
    ((State.reset.addScript (.write true)).addScript (.frame3 0 0 0xA8)).nextAck = true ∧
    ((State.reset.addScript (.frame4 1 2 3 4)).addScript (.count 2)).readAnswers =
      [⟨4, 1, 2, 3, 4⟩, ⟨2, 0, 0, 0, 0⟩] ∧
    expandAsm layout (.configureF 0 .ch4 .oneshot .s18 .x2) = .configure 0x6D ∧
    expandAsm layout (.op .get16) = .get16 := by decide

/-! ### One step of each operation -/

/-- VO-1: probe of an unconfigured block; the payload has `PROBE_LEN` bytes. -/
theorem test_test_unwritten :
    (nextOf (exec .test { unwritten with writeAnswers := [true] })).map
        (fun t => (t.responses, t.history, t.cfgWritten)) =
      some ([.bool true], [.write 0x68 [] true], false) ∧ ([] : List Byte).length = Config.probeLen := by decide

/-- VO-2. -/
theorem test_test_nak :
    (nextOf (exec .test (ready 0x28 [false] []))).map (fun t => (t.responses, t.cfg)) = some ([.bool false], 0x28) := by
  decide

/-- VO-5: all bits set is a legal configuration. -/
theorem test_configure_all_ones :
    (nextOf (exec (.configure 0xFF) (ready 0x28 [] []))).map (fun t => (t.cfg, t.responses, t.history)) =
      some (0xFF, [.none], []) := by decide

/-- VO-4: the first `CONFIGURE` after reset. -/
theorem test_configure_first :
    (nextOf (exec (.configure 0x28) unwritten)).map (fun t => (t.cfg, t.cfgWritten)) = some (0x28, true) := by decide

/-- VO-7, VO-8. -/
theorem test_getcfg :
    (nextOf (exec .getcfg (ready 0x58 [] []))).map (·.responses) = some [.byte 0x58] ∧
    exec .getcfg unwritten = .refused .cfgUnwritten := ⟨by decide, rfl⟩

/-- VW-3: the payload has `WR_LEN` bytes. -/
theorem test_start_ready_already_set :
    (nextOf (exec .start (ready 0x9C [true] []))).map (fun t => (t.history, t.responses, t.phase)) =
      some ([.write 0x68 [0x9C] true], [.bool true], .requested) ∧ [(0x9C : Byte)].length = Config.wrLen := by decide

/-- VW-2. -/
theorem test_start_nak :
    (nextOf (exec .start (ready 0x28 [false] []))).map (fun t => (t.history, t.responses, t.phase)) =
      some ([.write 0x68 [0xA8] false], [.bool false], .idle) := by decide

/-- VW-5: the cache changes although the write failed. -/
theorem test_startch_nak :
    (nextOf (exec (.startch 0x40) (ready 0x18 [false] []))).map (fun t => (t.cfg, t.history)) =
      some (0x58, [.write 0x68 [0xD8] false]) := by decide

/-- VW-8: the stored ready bit survives in the cache. -/
theorem test_startch_keeps_ready_bit :
    (nextOf (exec (.startch 0x20) (ready 0x8C [true] []))).map (fun t => (t.cfg, t.history)) =
      some (0xAC, [.write 0x68 [0xAC] true]) := by decide

/-- VR-1. -/
theorem test_get16_complete :
    (nextOf (exec .get16 (ready 0x28 [] [⟨3, 0x12, 0x34, 0x00, 0⟩]))).map (fun t => (t.responses, t.inFlight)) =
      some ([.s16 0x00 4660], none) := by decide

/-- VR-7: a delivered `0xFF` is busy and polled past. -/
theorem test_get16_polls_past_sentinel :
    (nextOf (exec .get16 (ready 0x28 [] [⟨3, 0, 0, 0xFF, 0⟩]))).map (fun t => (t.responses, t.inFlight)) =
      some ([], some .get16) := by decide

/-- VR-11: a delivered `0xFF` is returned by the single attempt, with the decode. -/
theorem test_chk16_returns_sentinel :
    (nextOf (exec .chk16 (ready 0x28 [] [⟨3, 1, 2, 0xFF, 0⟩]))).map (·.responses) =
      some [.s16 0xFF 258] := by decide

/-- VR-13: a mismatch before any bus activity. -/
theorem test_chk16_mismatch :
    (nextOf (exec .chk16 (ready 0x1C [] [⟨3, 1, 2, 3, 0⟩]))).map (fun t => (t.history, t.readAnswers.length)) =
      some ([], 1) := by decide

/-- VR-15, its second poll. -/
theorem test_get18_negative :
    (nextOf (step (polling 0x0C .get18 [⟨4, 0xFE, 0, 0, 0x0C⟩]))).map (fun t => (t.responses, t.inFlight)) =
      some ([.s32 0x0C 0xFFFE0000], none) := by decide

/-- VR-16: three of four bytes; the history holds the count and no bytes. -/
theorem test_get18_short :
    (nextOf (exec .get18 (ready 0x0C [] [⟨3, 1, 2, 3, 4⟩]))).map (fun t => (t.history, t.calls)) =
      some ([.read 0x68 4 3 none], [.requestBytes 0x68 4 3]) := by decide

/-- VR-19. -/
theorem test_chk18_busy :
    (nextOf (exec .chk18 (ready 0x6D [] [⟨4, 0xFF, 0xFF, 0xFF, 0xED⟩]))).map (fun t => (t.responses, t.phase)) =
      some ([.s32 0xED 0xFFFFFFFF], .pending) := by decide

/-- VR-21: over-delivery is failure too: one read with no byte consumed, one response. -/
theorem test_chk18_overdelivery :
    (nextOf (exec .chk18 (ready 0x6D [] [⟨5, 1, 2, 3, 4⟩]))).map (fun t => (t.history, t.responses.length)) =
      some ([.read 0x68 4 5 none], 1) := by decide

/-- VO-9: a reserved code stops the idle block. -/
theorem test_step_reserved : step (given 0x28 [] [] [0x900]) = .refused (.reservedOpcode 9) := rfl

/-- R72 as an event (log entry 14): the frame answers the poll that is due. -/
theorem test_frame_result3 :
    (nextOf (exec (.frameResult3 0x01 0x23 0x45 0x0C) (polling 0x0C .get18 []))).map (·.responses) =
      some [.s32 0x0C 0x00012345] := by decide

/-- R71 as an event (log entry 14): a busy frame holds the read. -/
theorem test_frame_result2 :
    (nextOf (exec (.frameResult2 0 0 0xA8) (polling 0x28 .get16 []))).map (·.inFlight) =
      some (some .get16) := by decide

/-- R132: a run with a failed read and a refused acknowledge in it is a good run (steps 2 and 4 of P3). -/
theorem test_good_run : goodRun 2 (given 0x0C [false] [] [0x500, 0x300]) := ⟨_, rfl⟩

/-! ### Witnesses: states that meet the hypotheses of the statements -/

/-- EncodeInvertsDecode, one bit pattern per format. -/
theorem test_wit_EncodeInvertsDecode :
    decode .cmd12 0x0AB = .ok .test ∧ decode .cmd12 0x1FF = .ok (.configure 0xFF) ∧
    decode .cfgByte 0xFF = .ok (.frameCfgByte 1 3 1 3 3) ∧ decode .wireWr1 0x80 = .ok (.frameCfgWrite 0 0 0 0) ∧
    decode .wireRd3 0xFFFFFF = .ok (.frameResult2 0xFF 0xFF 0xFF) ∧
    decode .wireRd4 0xFFFFFFFF = .ok (.frameResult3 0xFF 0xFF 0xFF 0xFF) ∧
    decode .statusByte 0x7F = .ok (.frameStatus 0 0x7F) := by decide

/-- ReservedCodesRefused, the lowest and the highest reserved code. -/
theorem test_wit_ReservedCodesRefused :
    (given 0x28 [] [] [0x900]).inFlight = none ∧ (given 0x28 [] [] [0x900]).commands = 0x900 :: [] ∧
    9 ≤ (opField 0x900).toNat ∧ (given 0x28 [] [] [0xFFF]).inFlight = none ∧
    (given 0x28 [] [] [0xFFF]).commands = 0xFFF :: [] ∧ 9 ≤ (opField 0xFFF).toNat := by decide

/-- UnpackInvertsPack, PackIsABijection, StartByteForcesReady, SizeClassFollowsSizeField: layouts that R5 allows. -/
theorem test_wit_layouts : layout.wf = true ∧ otherLayout.wf = true := by decide

/-- StartByteForcesReady and SizeClassFollowsSizeField: two bytes that agree as their last clauses ask. -/
theorem test_wit_bytes_that_agree :
    (0xA8 : Byte) &&& ~~~layout.rdyMask = 0x28 &&& ~~~layout.rdyMask ∧
    (0xF3 : Byte) &&& layout.sizeMask = 0x00 &&& layout.sizeMask := by decide

/-- SizeClassFollowsSizeField: both sides of the size code, at their boundary. -/
theorem test_wit_SizeClass :
    (unpack layout 0x0C).size = layout.size18 ∧ (unpack layout 0x0B).size ≠ layout.size18 ∧
    sizeClass otherLayout 0xCF = .three ∧ sizeClass otherLayout 0x10 = .two := by decide

/-- StatusClassTestsSentinelFirst: a byte for every class, at the boundaries. -/
theorem test_wit_StatusClass :
    statusClass layout 0xFF = .fail ∧ statusClass layout 0xFE = .busy ∧ statusClass layout 0x80 = .busy ∧
    statusClass layout 0x7F = .complete := by decide

/-- GetcfgReturnsCfg, StartWritesStartByte, StartchAmendsThenWrites, StartFamilyLaws: `CFG` written and not, the
transport acknowledging and not. -/
theorem test_wit_written_and_not :
    (ready 0x28 [true] []).cfgWritten = true ∧ (ready 0x28 [true] []).nextAck = true ∧
    (ready 0x28 [false] []).cfgWritten = true ∧ (ready 0x28 [false] []).nextAck = false ∧
    unwritten.cfgWritten = false := by decide

/-- ClassMismatchFailsWithoutBus: each size code beside and at the 18-bit one. -/
theorem test_wit_ClassMismatch :
    (ready 0x0C [] []).cfgWritten = true ∧
    (ready 0x0C [] []).cfg &&& layout.sizeMask = layout.size18.setWidth 8 <<< layout.sizeShift ∧
    (ready 0x0B [] []).cfgWritten = true ∧
    (ready 0x0B [] []).cfg &&& layout.sizeMask ≠ layout.size18.setWidth 8 <<< layout.sizeShift := by decide

/-- Get16PollsUntilReady, Chk16ReadsOnce and the clauses of `PollsTwo`: both classes, and the three deliveries. -/
theorem test_wit_sixteen :
    unwritten.cfgWritten = false ∧
    ((ready 0x0C [] []).cfgWritten = true ∧ sizeClass layout (ready 0x0C [] []).cfg = .three) ∧
    ((ready 0x0B [] []).cfgWritten = true ∧ sizeClass layout (ready 0x0B [] []).cfg = .two) ∧
    (polling 0x28 .get16 []).inFlight = some .get16 ∧
    ((ready 0x28 [] [⟨3, 0, 0, 0x80, 0⟩]).nextDelivery.cnt = 3 ∧
      (ready 0x28 [] [⟨3, 0, 0, 0x80, 0⟩]).nextDelivery.d2 &&& layout.rdyMask ≠ 0) ∧
    ((ready 0x28 [] [⟨3, 0, 0, 0x7F, 0⟩]).nextDelivery.cnt = 3 ∧
      (ready 0x28 [] [⟨3, 0, 0, 0x7F, 0⟩]).nextDelivery.d2 &&& layout.rdyMask = 0) ∧
    (ready 0x28 [] [⟨2, 0, 0, 0, 0⟩]).nextDelivery.cnt ≠ 3 ∧
    (ready 0x28 [] [⟨4, 0, 0, 0, 0⟩]).nextDelivery.cnt ≠ 3 := by
  decide

/-- Get18PollsUntilReady, Chk18ReadsOnce and the clauses of `PollsThree`: both classes, and the three deliveries. -/
theorem test_wit_eighteen :
    unwritten.cfgWritten = false ∧
    ((ready 0x0B [] []).cfgWritten = true ∧ sizeClass layout (ready 0x0B [] []).cfg = .two) ∧
    ((ready 0x0C [] []).cfgWritten = true ∧ sizeClass layout (ready 0x0C [] []).cfg = .three) ∧
    (polling 0x0C .get18 []).inFlight = some .get18 ∧
    ((ready 0x0C [] [⟨4, 0, 0, 0, 0x80⟩]).nextDelivery.cnt = 4 ∧
      (ready 0x0C [] [⟨4, 0, 0, 0, 0x80⟩]).nextDelivery.d3 &&& layout.rdyMask ≠ 0) ∧
    ((ready 0x0C [] [⟨4, 0, 0, 0, 0x7F⟩]).nextDelivery.cnt = 4 ∧
      (ready 0x0C [] [⟨4, 0, 0, 0, 0x7F⟩]).nextDelivery.d3 &&& layout.rdyMask = 0) ∧
    (ready 0x0C [] [⟨3, 0, 0, 0, 0⟩]).nextDelivery.cnt ≠ 4 ∧
    (ready 0x0C [] [⟨5, 0, 0, 0, 0⟩]).nextDelivery.cnt ≠ 4 := by
  decide

/-- SixteenBitReadsComplete, with the highest status that has the ready bit clear. -/
theorem test_wit_SixteenBitReadsComplete :
    (ready 0x0B [] [delivery3 0x80 0 0x7F]).cfgWritten = true ∧
    sizeClass layout (ready 0x0B [] [delivery3 0x80 0 0x7F]).cfg = .two ∧ (0x7F : Byte).getLsbD 7 = false ∧
    (ready 0x0B [] [delivery3 0x80 0 0x7F]).readAnswers = delivery3 0x80 0 0x7F :: [] := by decide

/-- EighteenBitReadsComplete, with the highest status that has the ready bit clear. -/
theorem test_wit_EighteenBitReadsComplete :
    (ready 0x0C [] [delivery4 0x80 0 0 0x7F]).cfgWritten = true ∧
    sizeClass layout (ready 0x0C [] [delivery4 0x80 0 0 0x7F]).cfg = .three ∧ (0x7F : Byte).getLsbD 7 = false ∧
    (ready 0x0C [] [delivery4 0x80 0 0 0x7F]).readAnswers = delivery4 0x80 0 0 0x7F :: [] := by decide

/-- CommandsRunOnceConfigured, and ResetValues with `CFG_RESET` left open: a command that reads `CFG`, with `CFG` written and not. -/
theorem test_wit_CommandsRunOnceConfigured :
    Instr.isCommand .get16 = true ∧ (ready 0 [] []).cfgWritten = true ∧ unwritten.cfgWritten = false ∧
    Instr.get16 ≠ .test ∧ ∀ b, Instr.get16 ≠ .configure b :=
  ⟨rfl, rfl, rfl, by decide, by intro b h; cases h⟩

/-- PseudoInstructionsSetFields: a written `CFG`. -/
theorem test_wit_PseudoInstructionsSetFields : (ready 0x18 [] []).cfgWritten = true := by decide

/-- ResultFramesAnswerThePoll: a poll of each kind due, and none. -/
theorem test_wit_ResultFramesAnswerThePoll :
    (polling 0x28 .get16 []).inFlight = some .get16 ∧ (polling 0x0C .get18 []).inFlight = some .get18 ∧
    State.reset.inFlight = none := by decide

/-- PollIsTheFrameArriving: a full frame of each length is the next answer. -/
theorem test_wit_PollIsTheFrameArriving :
    (polling 0x28 .get16 [delivery3 1 2 3]).inFlight = some .get16 ∧
    (polling 0x28 .get16 [delivery3 1 2 3]).readAnswers = delivery3 1 2 3 :: [] ∧
    (polling 0x28 .get16 [delivery4 1 2 3 4]).inFlight = some .get16 ∧
    (polling 0x28 .get16 [delivery4 1 2 3 4]).readAnswers = delivery4 1 2 3 4 :: [] := by decide

/-- StepRunsDecodedCommand. -/
theorem test_wit_StepRunsDecodedCommand :
    (given 0x28 [] [] [0x440, 0x600]).inFlight = none ∧
    (given 0x28 [] [] [0x440, 0x600]).commands = 0x440 :: [0x600] ∧
    decodeCommand 0x440 = .ok (.startch 0x40) := by decide

/-- FetchWordIsRunNext: a row of each of its three formats. -/
theorem test_wit_FetchWordIsRunNext :
    (decodeTableWord 16 0x8FF = some .chk18 ∧ Instr.isCommand .chk18 = true) ∧
    (decodeTableWord 24 0xFFFFFF = some (.frameResult2 0xFF 0xFF 0xFF) ∧
      Instr.format (.frameResult2 0xFF 0xFF 0xFF) = .wireRd3) ∧
    (decodeTableWord 32 0xFFFFFFFF = some (.frameResult3 0xFF 0xFF 0xFF 0xFF) ∧
      Instr.format (.frameResult3 0xFF 0xFF 0xFF 0xFF) = .wireRd4) := by decide

/-- NoCommandWhilePolling: a poll due with a command waiting. -/
theorem test_wit_NoCommandWhilePolling :
    ({ polling 0x28 .get16 [] with commands := [0x200] } : State).inFlight = some .get16 := by decide

/-- IdleBlockWaits. -/
theorem test_wit_IdleBlockWaits : State.reset.inFlight = none ∧ State.reset.commands = [] := by decide

/-- OnlyTwoRefusals: a step refused on each ground. -/
theorem test_wit_OnlyTwoRefusals :
    step (given 0x28 [] [] [0xFFF]) = .refused (.reservedOpcode 15) ∧
    step { unwritten with commands := [0x800] } = .refused .cfgUnwritten := ⟨rfl, rfl⟩

/-- ReadsSeeOnlyTheSizeClass: two bytes of one class, that differ in every other bit. -/
theorem test_wit_ReadsSeeOnlyTheSizeClass :
    sizeClass layout 0xF3 = sizeClass layout (ready 0x00 [] []).cfg ∧
    sizeClass layout 0xFF = sizeClass layout (ready 0x0C [] []).cfg := by decide

/-- OnlyConfigureAndStartchWriteCfg, StepAppendsAtMostOne, PhaseFollowsTheTransaction: a step of each kind answers a
next state. -/
theorem test_wit_steps :
    (∃ t, step (given 0x28 [] [] [0x1FF]) = .next t) ∧ (∃ t, step (given 0x28 [true] [] [0x440]) = .next t) ∧
    (∃ t, step (polling 0x28 .get16 [⟨3, 0, 0, 0x80, 0⟩]) = .next t) ∧ (∃ t, step State.reset = .next t) :=
  ⟨⟨_, rfl⟩, ⟨_, rfl⟩, ⟨_, rfl⟩, ⟨_, rfl⟩⟩

/-- PhaseFollowsTheTransaction: a step that ends in each phase it can move to. -/
theorem test_wit_phases :
    (nextOf (step (given 0x28 [true] [] [0x300]))).map (·.phase) = some .requested ∧
    (nextOf (step (given 0x28 [] [⟨3, 0, 0, 0xA8, 0⟩] [0x500]))).map (·.phase) = some .pending ∧
    (nextOf (step (given 0x0C [] [⟨4, 0, 0, 0, 0x7F⟩] [0x800]))).map (·.phase) = some .complete ∧
    (nextOf (step (given 0x28 [true] [] [0x000]))).map (·.phase) = some .idle := by decide

/-- StepKeepsInvariant: a block with a read in flight, a transaction made and a sample given meets the invariant and
steps. -/
theorem test_wit_StepKeepsInvariant :
    State.Inv { polling 0x0C .get18 [⟨4, 0, 0, 0, 0x80⟩] with
      history := [.write 0x68 [0x8C] true],
      calls := [.beginTransaction 0x68, .writeByte 0x8C, .endTransaction true],
      responses := [.none, .bool true, .s32 0x0C 0x007FFFFF] } ∧
    ∃ t, step { polling 0x0C .get18 [⟨4, 0, 0, 0, 0x80⟩] with
      history := [.write 0x68 [0x8C] true],
      calls := [.beginTransaction 0x68, .writeByte 0x8C, .endTransaction true],
      responses := [.none, .bool true, .s32 0x0C 0x007FFFFF] } = .next t := by
  refine ⟨⟨?_, ?_, rfl, ?_, ?_⟩, _, rfl⟩
  · intro x hx
    obtain rfl := List.mem_singleton.mp hx
    rfl
  · intro x hx
    obtain rfl := List.mem_singleton.mp hx
    exact .inr ⟨0x8C, rfl, by decide⟩
  · intro r hr
    cases hr
    decide
  · intro x hx
    rcases List.mem_cons.mp hx with rfl | hx
    · trivial
    rcases List.mem_cons.mp hx with rfl | hx
    · trivial
    obtain rfl := List.mem_singleton.mp hx
    exact .inr (by decide)

/-- BlockingReadEndsAfterNPlusOnePolls, of each class, with N = 2 and with N = 0 (VR-2, VR-14). -/
theorem test_wit_BlockingReadEnds :
    (let s := given 0x28 [] [⟨3, 0, 0, 0xA8, 0⟩, ⟨3, 0, 0, 0xFF, 0⟩, ⟨3, 0xFF, 0xFE, 0x28, 0⟩] [0x500]
     s.inFlight = none ∧ s.cfgWritten = true ∧ sizeClass layout s.cfg = BlockingRead.sizeClass .get16 ∧
     s.commands = 0x500 :: [] ∧ decodeCommand 0x500 = .ok (BlockingRead.instr .get16) ∧
     s.readAnswers = [⟨3, 0, 0, 0xA8, 0⟩, ⟨3, 0, 0, 0xFF, 0⟩] ++ ⟨3, 0xFF, 0xFE, 0x28, 0⟩ :: [] ∧
     (∀ x ∈ [(⟨3, 0, 0, 0xA8, 0⟩ : Delivery), ⟨3, 0, 0, 0xFF, 0⟩],
       x.isBusy (BlockingRead.sizeClass .get16) = true) ∧
     Delivery.isComplete (BlockingRead.sizeClass .get16) ⟨3, 0xFF, 0xFE, 0x28, 0⟩ = true) ∧
    (let s := given 0x0C [] [⟨4, 1, 0x23, 0x45, 0⟩] [0x700]
     s.inFlight = none ∧ s.cfgWritten = true ∧ sizeClass layout s.cfg = BlockingRead.sizeClass .get18 ∧
     s.commands = 0x700 :: [] ∧ decodeCommand 0x700 = .ok (BlockingRead.instr .get18) ∧
     s.readAnswers = [] ++ ⟨4, 1, 0x23, 0x45, 0⟩ :: [] ∧
     Delivery.isComplete (BlockingRead.sizeClass .get18) ⟨4, 1, 0x23, 0x45, 0⟩ = true) := by decide

/-- BlockingReadFailsAtTheShortPoll, of each class, short by one and long by one (VR-3, VR-5). -/
theorem test_wit_BlockingReadFails :
    (let s := given 0x28 [] [⟨3, 0x11, 0x11, 0xA8, 0⟩, ⟨2, 0, 0, 0, 0⟩] [0x500]
     s.inFlight = none ∧ s.cfgWritten = true ∧ sizeClass layout s.cfg = BlockingRead.sizeClass .get16 ∧
     s.commands = 0x500 :: [] ∧ decodeCommand 0x500 = .ok (BlockingRead.instr .get16) ∧
     s.readAnswers = [⟨3, 0x11, 0x11, 0xA8, 0⟩] ++ ⟨2, 0, 0, 0, 0⟩ :: [] ∧
     (∀ x ∈ [(⟨3, 0x11, 0x11, 0xA8, 0⟩ : Delivery)], x.isBusy (BlockingRead.sizeClass .get16) = true) ∧
     Delivery.cnt ⟨2, 0, 0, 0, 0⟩ ≠ frameLen (BlockingRead.sizeClass .get16)) ∧
    (let s := given 0x0C [] [⟨5, 0, 0, 0, 0⟩] [0x700]
     s.inFlight = none ∧ s.cfgWritten = true ∧ sizeClass layout s.cfg = BlockingRead.sizeClass .get18 ∧
     s.commands = 0x700 :: [] ∧ decodeCommand 0x700 = .ok (BlockingRead.instr .get18) ∧
     s.readAnswers = [] ++ ⟨5, 0, 0, 0, 0⟩ :: [] ∧
     Delivery.cnt ⟨5, 0, 0, 0, 0⟩ ≠ frameLen (BlockingRead.sizeClass .get18)) := by decide

/-- BusyDeviceHangsTheRead and PollEndsUnlessBusy: a poll of each class against two busy frames, and one that ends. -/
theorem test_wit_BusyDevice :
    (polling 0x28 .get16 [⟨3, 0, 0, 0x80, 0⟩, ⟨3, 0, 0, 0xFF, 0⟩]).inFlight = some .get16 ∧
    (∀ x ∈ (polling 0x28 .get16 [⟨3, 0, 0, 0x80, 0⟩, ⟨3, 0, 0, 0xFF, 0⟩]).readAnswers,
      x.isBusy (BlockingRead.sizeClass .get16) = true) ∧
    (polling 0x0C .get18 [⟨4, 0, 0, 0, 0x80⟩]).inFlight = some .get18 ∧
    (polling 0x0C .get18 [⟨4, 0, 0, 0, 0x80⟩]).nextDelivery.isBusy (BlockingRead.sizeClass .get18) = true ∧
    (polling 0x0C .get18 [⟨4, 0, 0, 0, 0x7F⟩]).nextDelivery.isBusy (BlockingRead.sizeClass .get18) = false := by
  decide

/-- BlockingReadStatusProves: a poll that fails and one that succeeds, each giving a response. -/
theorem test_wit_BlockingReadStatusProves :
    (∃ t x, step (polling 0x28 .get16 [⟨4, 0, 0, 0, 0⟩]) = .next t ∧ t.responses = [] ++ [x]) ∧
    (∃ t, step (polling 0x28 .get16 [⟨3, 0, 1, 0x7F, 0⟩]) = .next t ∧ t.responses = [] ++ [.s16 0x7F 1]) :=
  ⟨⟨_, _, rfl, rfl⟩, ⟨_, rfl, rfl⟩⟩

/-- DeviceLearnsOnlyFromAcknowledgedStarts: a step that changes what the device knows, and one that does not. -/
theorem test_wit_DeviceLearns :
    (nextOf (step (given 0x28 [true] [] [0x300]))).map (fun t => lastAcknowledged t.history) = some (some 0xA8) ∧
    (nextOf (step (given 0x28 [false] [] [0x300]))).map (fun t => lastAcknowledged t.history) = some none := by decide

/-- FailureIsNotSticky: each class mismatched with a good frame next, and each read on the other class's count. -/
theorem test_wit_FailureIsNotSticky :
    ((ready 0x0C [] [⟨3, 0, 0, 0, 0⟩]).cfgWritten = true ∧ Instr.get16 ∈ readsOfClass .two ∧
      sizeClass layout (ready 0x0C [] [⟨3, 0, 0, 0, 0⟩]).cfg ≠ .two) ∧
    ((ready 0x0B [] [⟨4, 0, 0, 0, 0⟩]).cfgWritten = true ∧ Instr.chk18 ∈ readsOfClass .three ∧
      sizeClass layout (ready 0x0B [] [⟨4, 0, 0, 0, 0⟩]).cfg ≠ .three) ∧
    (sizeClass layout (ready 0x0B [] [⟨4, 0, 0, 0, 0⟩]).cfg = .two ∧
      (ready 0x0B [] [⟨4, 0, 0, 0, 0⟩]).nextDelivery.cnt ≠ frameLen .two) ∧
    (sizeClass layout (ready 0x0C [] [⟨3, 0, 0, 0, 0⟩]).cfg = .three ∧
      (ready 0x0C [] [⟨3, 0, 0, 0, 0⟩]).nextDelivery.cnt ≠ frameLen .three) ∧
    ((polling 0x28 .get16 [⟨2, 0, 0, 0, 0⟩]).inFlight = some .get16 ∧
      (polling 0x28 .get16 [⟨2, 0, 0, 0, 0⟩]).nextDelivery.cnt ≠ frameLen (BlockingRead.sizeClass .get16)) := by
  decide

/-- EveryOperationRunsFromReset: a reader as the first word, a written `CFG` that steps, and one that is refused. -/
theorem test_wit_EveryOperationRunsFromReset :
    decodeCommand 0x500 = .ok .get16 ∧ State.reset.cfgWritten = true ∧ (∃ t, step State.reset = .next t) ∧
    (∃ t, step (State.reset.withFetchWord 12 0x500) = .next t) ∧
    step (given 0x28 [] [] [0x900]) = .refused (.reservedOpcode 9) := ⟨rfl, rfl, ⟨_, rfl⟩, ⟨_, rfl⟩, rfl⟩

/-- StartsMoveThePhase: both starts on a written `CFG`, acknowledged and not. -/
theorem test_wit_StartsMoveThePhase :
    (ready 0x28 [true] []).cfgWritten = true ∧ (ready 0x28 [true] []).nextAck = true ∧
    (ready 0x28 [false] []).nextAck = false ∧ ∃ v, Instr.startch 0x40 = .startch v := ⟨rfl, rfl, rfl, _, rfl⟩

end Sys2Proof.Tests
end

/-! SUPPORT. Rules for the statements of 00_scope.md: the arithmetic law of R8 at every width, when a command and a
step are refused, and what a placed command word does. Then the proofs of those statements. -/

namespace Sys2Proof.Machine

/-! ### The arithmetic shift (R8) -/

/-- Shifting the appended low part out of a container sign-extends what is left, at every width that has a sign bit. -/
theorem sshiftRight_append {w v : Nat} (hpos : 0 < w) (x : BitVec w) (g : BitVec v) :
    (x ++ g).sshiftRight v = x.signExtend (w + v) := by
  have hmsb : (x ++ g).msb = x.msb := by rw [BitVec.msb_append, if_neg hpos.ne']
  ext i hi
  rw [BitVec.getElem_sshiftRight, BitVec.getElem_signExtend, hmsb]
  by_cases hw : i < w
  · have hin : v + i < w + v := by omega
    simp [hw, hin, BitVec.getElem_append]
  · have hout : ¬ v + i < w + v := by omega
    simp [hw, hout]

variable {s t : State}

/-! ### When a command is refused (R152) -/

/-- While `CFG` is written a class-checked read answers a next state. -/
theorem classChecked_runs {k : SizeClass} (body : State → State) (h : s.cfgWritten = true) :
    ∃ t, classChecked k body s = .next t := by
  obtain ⟨hu, _⟩ | ⟨_, _, e⟩ | ⟨_, _, e⟩ := classChecked_cases s k body
  · rw [h] at hu; cases hu
  · exact ⟨_, e⟩
  · exact ⟨_, e⟩

/-- While `CFG` is written every operation answers a next state. -/
theorem exec_runs {i : Instr} (hi : i.isCommand = true) (h : s.cfgWritten = true) : ∃ t, exec i s = .next t := by
  cases i with
  | test => exact ⟨_, exec_test s⟩
  | configure b => exact ⟨_, exec_configure s b⟩
  | getcfg => exact ⟨_, exec_getcfg s h⟩
  | start => exact ⟨_, exec_start s h⟩
  | startch v => exact ⟨_, exec_startch s h v⟩
  | get16 => exact classChecked_runs _ h
  | chk16 => exact classChecked_runs _ h
  | get18 => exact classChecked_runs _ h
  | chk18 => exact classChecked_runs _ h
  | frameCfgByte _ _ _ _ _ => cases hi
  | frameCfgWrite _ _ _ _ => cases hi
  | frameResult2 _ _ _ => cases hi
  | frameResult3 _ _ _ _ => cases hi
  | frameStatus _ _ => cases hi

/-- The one refusal of an operation: a reader of `CFG` while it is unwritten. -/
theorem exec_refused_cases {i : Instr} {r : Refusal} (hi : i.isCommand = true) (h : exec i s = .refused r) :
    s.cfgWritten = false ∧ i ≠ .test ∧ (∀ b, i ≠ .configure b) ∧ r = .cfgUnwritten := by
  have hw : s.cfgWritten = false := by
    by_contra hw
    obtain ⟨t, e⟩ := exec_runs hi (Bool.of_not_eq_false hw)
    rw [e] at h; cases h
  have ht : i ≠ .test := by rintro rfl; cases h
  have hc : ∀ b, i ≠ .configure b := by rintro b rfl; cases h
  rw [exec_unwritten s i hi ht hc hw] at h
  cases h
  exact ⟨hw, ht, hc, rfl⟩

/-- An operation keeps `CFG` written. -/
theorem exec_keeps_written {i : Instr} (hi : i.isCommand = true) (h : exec i s = .next t)
    (hw : s.cfgWritten = true) : t.cfgWritten = true := by
  obtain ⟨_, rfl⟩ | ⟨_, _, rfl⟩ | ⟨_, hreader⟩ := exec_command_cases hi h
  · simp [hw]
  · simp
  · obtain ⟨_, rfl⟩ | ⟨_, rfl⟩ | ⟨_, _, rfl⟩ | ⟨_, _, rfl⟩ | ⟨_, _, rfl⟩ | ⟨_, _, rfl⟩ := hreader <;> simp [hw]

/-! ### One step -/

/-- A blocking read in flight is polled (R115). -/
theorem step_polling {r : BlockingRead} (hf : s.inFlight = some r) : step s = .next (poll r s) := by
  simp [step, hf]

/-- An idle block with no command waits (R165). -/
theorem step_waiting (hf : s.inFlight = none) (hc : s.commands = []) : step s = .next s := by
  simp [step, fetchCommand, hf, hc]

/-- An idle block runs the operation its next command word decodes to (R142). -/
theorem step_command {w : CommandWord} {rest : List CommandWord} {i : Instr} (hf : s.inFlight = none)
    (hc : s.commands = w :: rest) (hd : decodeCommand w = .ok i) : step s = exec i { s with commands := rest } := by
  simp [step, fetchCommand, hf, hc, hd]

/-- An idle block refuses a command word that decodes to no operation (R63). -/
theorem step_reserved {w : CommandWord} {rest : List CommandWord} {e : DecodeError} (hf : s.inFlight = none)
    (hc : s.commands = w :: rest) (hd : decodeCommand w = .error e) :
    step s = .refused (.reservedOpcode (opField w)) := by
  simp [step, fetchCommand, hf, hc, hd, refuseWord]

/-- If a step is refused, the block is idle and its next command word has a reserved code (R63) or the operation it
decodes to is refused (R152). -/
theorem step_refused_cases {r : Refusal} (h : step s = .refused r) :
    s.inFlight = none ∧ ∃ w rest, s.commands = w :: rest ∧
      ((9 ≤ (opField w).toNat ∧ r = .reservedOpcode (opField w)) ∨
       (∃ i, decodeCommand w = .ok i ∧ exec i { s with commands := rest } = .refused r)) := by
  rcases Option.eq_none_or_eq_some s.inFlight with hf | ⟨b, hf⟩
  · cases hc : s.commands with
    | nil => rw [step_waiting hf hc] at h; cases h
    | cons w rest =>
      refine ⟨hf, w, rest, rfl, ?_⟩
      cases hd : decodeCommand w with
      | ok i => exact .inr ⟨i, rfl, (step_command hf hc hd).symm.trans h⟩
      | error e =>
        rw [step_reserved hf hc hd] at h
        cases h
        exact .inl ⟨decodeCommand_error hd, rfl⟩
  · rw [step_polling hf] at h; cases h

/-- A step keeps `CFG` written. -/
theorem step_keeps_written (hw : s.cfgWritten = true) (h : step s = .next t) : t.cfgWritten = true := by
  obtain ⟨r, _, rfl⟩ | ⟨_, _, rfl⟩ | ⟨_, w, rest, i, _, hd, he⟩ := step_cases h
  · simpa using hw
  · exact hw
  · exact exec_keeps_written (decodeCommand_isCommand hd) he hw

/-! ### Placing a command word -/

/-- A command word placed is the next command of an idle block. -/
theorem withFetchWord_command (s : State) (w : CommandWord) :
    s.withFetchWord 12 w.toNat = { s with inFlight := none, commands := w :: s.commands } := by
  have hw : w.toNat < 4096 := w.isLt
  simp [State.withFetchWord, hw]

/-- The step after a command word is placed runs its operation. -/
theorem step_withFetchWord_command (s : State) {w : CommandWord} {i : Instr} (hd : decodeCommand w = .ok i) :
    step (s.withFetchWord 12 w.toNat) = exec i { s with inFlight := none } := by
  rw [withFetchWord_command, step_command rfl rfl hd]

/-! ### The statements of 00_scope.md -/

/-- Settles O53: the law at widths 24 and 8. -/
theorem shiftIsSignExtension : Obligations.ShiftIsSignExtension :=
  fun b0 b1 b2 g => sshiftRight_append (by decide) (b0 ++ b1 ++ b2) g

/-- Settles O55: reset is a state with `CFG` written, and with `CFG` written no operation is refused. -/
theorem everyOperationRunsFromReset : Obligations.EveryOperationRunsFromReset := by
  refine ⟨fun w i hd => ?_, fun _ _ => step_keeps_written, fun s r hw h => ?_⟩
  · obtain ⟨t, ht⟩ := exec_runs (s := State.reset) (decodeCommand_isCommand hd) rfl
    exact ⟨t, (step_withFetchWord_command State.reset hd).trans ht, ht⟩
  · obtain ⟨_, w, rest, hc, ⟨hop, hr⟩ | ⟨i, hd, he⟩⟩ := step_refused_cases h
    · exact ⟨w, rest, hc, hop, hr⟩
    · obtain ⟨hu, _⟩ := exec_refused_cases (decodeCommand_isCommand hd) he
      exact absurd (hw.symm.trans hu) (by decide)

/-- Settles O37: each field by construction, the refusals by the rule of the seven readers. -/
theorem resetValues : Obligations.ResetValues := by
  refine ⟨fun a c => ⟨rfl, rfl, rfl, rfl, rfl, rfl, ?given, ?leftOpen⟩, rfl⟩
  case given => rintro v rfl; exact ⟨rfl, rfl⟩
  case leftOpen => rintro rfl; exact ⟨rfl, fun i hi ht hc => exec_unwritten _ i hi ht hc rfl⟩

/-- Settles O38: each value is the one `State.construct` writes. -/
theorem resetChosenValues : Obligations.ResetChosenValues :=
  ⟨rfl, rfl, rfl, rfl, rfl, rfl, rfl, fun _ => rfl⟩

end Sys2Proof.Machine

/-! SUPPORT. Rules for the statements of 10_state.md: each shared operation keeps the invariant, does the same with the
records cleared, leaves the registers alone and moves the ghost phase by its transaction. Then the proofs of those
statements. -/

namespace Sys2Proof.Machine
variable {s t : State}

/-! ### What the invariant asks of bytes and samples (R67, R74) -/

/-- Forcing the ready bit a second time changes nothing, whatever the layout (R67). -/
theorem startByte_startByte (L : Layout) (c : Byte) : startByte L (startByte L c) = startByte L c := by
  ext i hi
  simp only [startByte, BitVec.getElem_or, BitVec.getElem_and, BitVec.getElem_not]
  cases L.rdyMask[i] <;> simp

/-- The decoded sample lies in the 24-bit signed range (R74). -/
theorem decode18_range (d0 d1 d2 : Byte) :
    -8388608 ≤ (decode18 d0 d1 d2).toInt ∧ (decode18 d0 d1 d2).toInt ≤ 8388607 := by
  have same : (decode18 d0 d1 d2).toInt = (d0 ++ d1 ++ d2).toInt := BitVec.toInt_signExtend_of_le (by decide)
  have low : -8388608 ≤ (d0 ++ d1 ++ d2).toInt := BitVec.le_toInt _
  have high : (d0 ++ d1 ++ d2).toInt < 8388608 := BitVec.toInt_lt
  omega

theorem Delivery.response_ranged (d : Delivery) (k : SizeClass) : (d.response k).ranged := by
  cases k with
  | two => trivial
  | three => exact .inr (decode18_range _ _ _)

theorem failResponse_ranged (k : SizeClass) (i : Nat) : (failResponse k i).ranged := by
  cases k with
  | two => trivial
  | three => exact .inl rfl

theorem frameLen_eq_three_or_four (k : SizeClass) : frameLen k = 3 ∨ frameLen k = 4 := by
  cases k with
  | two => exact .inl rfl
  | three => exact .inr rfl

/-- What a read consumes of a delivery is framed as R42 asks. -/
theorem Delivery.consumed_framed (d : Delivery) (a : BusAddr) {n : Nat} (hn : n = 3 ∨ n = 4) :
    (Transaction.read a n d.cnt (d.consumed n)).framed := by
  refine ⟨hn, ?_⟩
  by_cases hc : d.cnt = n
  · exact .inl ⟨hc, d.bytes n, d.consumed_good hc, by rcases hn with rfl | rfl <;> rfl⟩
  · exact .inr ⟨hc, d.consumed_bad hc⟩

/-! ### Each shared operation keeps the invariant -/

namespace State.Inv

/-- The invariant does not speak of the inputs, the phase or the counter. -/
theorem of_same (h : s.Inv) (ha : t.addr = s.addr) (hh : t.history = s.history) (hc : t.calls = s.calls)
    (hf : t.inFlight = s.inFlight) (hw : t.cfgWritten = s.cfgWritten) (hg : t.cfg = s.cfg)
    (hr : t.responses = s.responses) : t.Inv where
  addresses := by rw [hh, ha]; exact h.addresses
  framed := by rw [hh]; exact h.framed
  calls := by rw [hc, hh]; exact h.calls
  polled := by rw [hf, hw, hg]; exact h.polled
  ranged := by rw [hr]; exact h.ranged

theorem commands (h : s.Inv) (q : List CommandWord) : ({ s with commands := q } : State).Inv :=
  h.of_same rfl rfl rfl rfl rfl rfl rfl

theorem setPhase (h : s.Inv) (p : Phase) : (s.setPhase p).Inv := h.of_same rfl rfl rfl rfl rfl rfl rfl

theorem takeAck (h : s.Inv) : s.takeAck.Inv := by apply h.of_same <;> simp

theorem takeDelivery (h : s.Inv) : s.takeDelivery.Inv := by apply h.of_same <;> simp

/-- `CFG` changes only while no read is in flight (R110). -/
theorem setCfg (h : s.Inv) (hf : s.inFlight = none) (v : Byte) : (s.setCfg v).Inv where
  addresses := h.addresses
  framed := h.framed
  calls := h.calls
  polled := fun r hr => by simp [hf] at hr
  ranged := h.ranged

theorem respond (h : s.Inv) {x : Response} (hx : x.ranged) : (s.respond x).Inv where
  addresses := h.addresses
  framed := h.framed
  calls := h.calls
  polled := fun r hr => by simp at hr
  ranged := by simpa [or_imp, forall_and, hx] using h.ranged

/-- A read held for another poll has passed its class check. -/
theorem hold (h : s.Inv) {r : BlockingRead} (hr : s.cfgWritten = true ∧ sizeClass layout s.cfg = r.sizeClass) :
    (s.hold r).Inv where
  addresses := h.addresses
  framed := h.framed
  calls := h.calls
  polled := by rintro _ ⟨⟩; exact hr
  ranged := h.ranged

/-- A framed transaction to `ADDR` enters the history together with its own primitives. -/
theorem issue (h : s.Inv) {x : Transaction} (ha : x.addr = s.addr) (hx : x.framed) :
    ((s.callAll x.calls).record x).Inv where
  addresses := by simpa [or_imp, forall_and, ha] using h.addresses
  framed := by simpa [or_imp, forall_and, hx] using h.framed
  calls := by simp [h.calls]
  polled := h.polled
  ranged := h.ranged

theorem memWrite (h : s.Inv) {p : List Byte} (hp : p = [] ∨ ∃ b, p = [b] ∧ startByte layout b = b) :
    (memWrite s.addr p s).Inv :=
  h.takeAck.issue (x := .write s.addr p s.nextAck) s.takeAck_addr.symm hp

theorem memRead (h : s.Inv) (k : SizeClass) : (memRead s.addr (frameLen k) s).Inv :=
  h.takeDelivery.issue (x := .read s.addr (frameLen k) _ _) s.takeDelivery_addr.symm
    (s.nextDelivery.consumed_framed s.addr (frameLen_eq_three_or_four k))

theorem raiseTransportFailure (h : s.Inv) (k : SizeClass) (c : FailureCause) :
    (raiseTransportFailure k c s).Inv :=
  (h.respond (failResponse_ranged k s.freeIndex)).of_same rfl rfl rfl rfl rfl rfl rfl

theorem sendStart (h : s.Inv) : (sendStart s).Inv := by
  have wrote : (Machine.memWrite s.addr [startByte layout s.cfg] s).Inv :=
    h.memWrite (.inr ⟨_, rfl, startByte_startByte layout s.cfg⟩)
  unfold Machine.sendStart
  split
  · exact (wrote.setPhase .requested).respond trivial
  · exact wrote.respond trivial

theorem poll (h : s.Inv) {r : BlockingRead} (hr : s.cfgWritten = true ∧ sizeClass layout s.cfg = r.sizeClass) :
    (poll r s).Inv := by
  have read := h.memRead r.sizeClass
  obtain ⟨_, e⟩ | ⟨_, _, e⟩ | ⟨_, _, e⟩ := poll_cases s r <;> rw [e]
  · exact read.raiseTransportFailure _ _
  · exact (read.setPhase _).hold (by simpa using hr)
  · exact (read.setPhase _).respond (s.nextDelivery.response_ranged _)

theorem attempt (h : s.Inv) (k : SizeClass) : (attempt k s).Inv := by
  have read := h.memRead k
  obtain ⟨_, e⟩ | ⟨_, e⟩ := attempt_cases s k <;> rw [e]
  · exact read.raiseTransportFailure _ _
  · exact (read.setPhase _).respond (s.nextDelivery.response_ranged _)

/-- An operation run by an idle block keeps the invariant. -/
theorem exec (h : s.Inv) (hf : s.inFlight = none) {i : Instr} (hi : i.isCommand = true)
    (he : exec i s = .next t) : t.Inv := by
  obtain ⟨_, rfl⟩ | ⟨b, _, rfl⟩ | ⟨hw, hreader⟩ := exec_command_cases hi he
  · exact (h.memWrite (.inl rfl)).respond trivial
  · exact (h.setCfg hf b).respond trivial
  · obtain ⟨_, rfl⟩ | ⟨_, rfl⟩ | ⟨v, _, rfl⟩ | ⟨k, _, rfl⟩ | ⟨r, hk, rfl⟩ | ⟨k, _, rfl⟩ := hreader
    · exact h.respond trivial
    · exact h.sendStart
    · exact (h.setCfg hf _).sendStart
    · exact h.raiseTransportFailure k .mismatch
    · exact h.poll ⟨hw, hk⟩
    · exact h.attempt k

theorem step (h : s.Inv) (hs : step s = .next t) : t.Inv := by
  obtain ⟨r, hf, rfl⟩ | ⟨_, _, rfl⟩ | ⟨hf, w, rest, i, _, hd, he⟩ := step_cases hs
  · exact h.poll (h.polled r hf)
  · exact h
  · exact (h.commands rest).exec hf (decodeCommand_isCommand hd) he

/-- Construction issues nothing and answers nothing, at any address, with `CFG_RESET` given or open. -/
theorem construct (a : BusAddr) (c : Option Byte) : (State.construct a c).Inv := by
  constructor <;> simp [State.construct]

end State.Inv

/-! ### Clearing the records (R26, R30, R166)

`forget` moves inwards past every shared operation: it passes what writes the block, and wipes out what only writes
records. -/

@[simp] theorem State.forget_forget : s.forget.forget = s.forget := rfl
@[simp] theorem State.forget_addr : s.forget.addr = s.addr := rfl
@[simp] theorem State.forget_nextAck : s.forget.nextAck = s.nextAck := rfl
@[simp] theorem State.forget_nextDelivery : s.forget.nextDelivery = s.nextDelivery := rfl

@[simp] theorem State.hold_forget (r : BlockingRead) : (s.hold r).forget = s.forget.hold r := rfl
@[simp] theorem State.respond_forget (x : Response) :
    (s.respond x).forget = { s.forget with inFlight := none } := rfl
@[simp] theorem State.setPhase_forget (p : Phase) : (s.setPhase p).forget = s.forget := rfl
@[simp] theorem State.observe_forget (b : Byte) : (s.observe b).forget = s.forget := rfl
@[simp] theorem raiseTransportFailure_forget (k : SizeClass) (c : FailureCause) :
    (raiseTransportFailure k c s).forget =
      { s.forget with inFlight := none, freeIndex := s.forget.freeIndex + 1 } := rfl

theorem State.takeAck_forget : s.takeAck.forget = s.forget.takeAck := by
  cases h : s.writeAnswers <;> simp [State.takeAck, State.forget, h]

theorem State.takeDelivery_forget : s.takeDelivery.forget = s.forget.takeDelivery := by
  cases h : s.readAnswers <;> simp [State.takeDelivery, State.forget, h]

@[simp] theorem memWrite_forget (a : BusAddr) (p : List Byte) : (memWrite a p s).forget = s.forget.takeAck :=
  s.takeAck_forget

@[simp] theorem memRead_forget (a : BusAddr) (n : Nat) : (memRead a n s).forget = s.forget.takeDelivery :=
  s.takeDelivery_forget

theorem sendStart_forget : (sendStart s).forget = { s.forget.takeAck with inFlight := none } := by
  unfold sendStart
  split <;> simp

theorem sendStart_blind : (sendStart s.forget).forget = (sendStart s).forget := by
  rw [sendStart_forget, sendStart_forget, State.forget_forget]

theorem poll_blind (r : BlockingRead) : (poll r s.forget).forget = (poll r s).forget := by
  obtain ⟨hc, e⟩ | ⟨hc, hb, e⟩ | ⟨hc, hb, e⟩ := poll_cases s r <;> rw [e]
  · simp [poll, hc]
  · simp [poll, hc, hb]
  · simp [poll, hc, hb]

theorem attempt_blind (k : SizeClass) : (attempt k s.forget).forget = (attempt k s).forget := by
  obtain ⟨hc, e⟩ | ⟨hc, e⟩ := attempt_cases s k <;> rw [e] <;> simp [attempt, hc]

/-! ### Outcomes of two states compared -/

/-- A reader of `CFG` has the same outcome in two states if it has when `CFG` is written. -/
theorem withCfg_congr (f g : State → State) {k k' : Byte → Host.Outcome State Fault Refusal}
    (hw : t.cfgWritten = s.cfgWritten) (hk : outcomeMap f (k t.cfg) = outcomeMap g (k' s.cfg)) :
    outcomeMap f (withCfg t k) = outcomeMap g (withCfg s k') := by
  cases h : s.cfgWritten with
  | true => rw [withCfg_written s h, withCfg_written t (hw.trans h), hk]
  | false => rw [withCfg_unwritten s h, withCfg_unwritten t (hw.trans h)]; rfl

/-- A class-checked read has the same outcome in two states of one size class if its body and its failure do. -/
theorem classChecked_congr (f g : State → State) {k : SizeClass} {body : State → State}
    (hw : t.cfgWritten = s.cfgWritten) (hk : sizeClass layout t.cfg = sizeClass layout s.cfg)
    (hfail : f (raiseTransportFailure k .mismatch t) = g (raiseTransportFailure k .mismatch s))
    (hbody : f (body t) = g (body s)) :
    outcomeMap f (classChecked k body t) = outcomeMap g (classChecked k body s) := by
  refine withCfg_congr f g hw (congrArg Host.Outcome.next ?_)
  rw [hk]
  split
  · exact hfail
  · exact hbody

/-- No operation reads a record (R26, R30, R166). -/
theorem exec_blind {i : Instr} (hi : i.isCommand = true) :
    outcomeMap State.forget (exec i s.forget) = outcomeMap State.forget (exec i s) := by
  cases i with
  | test => simp [exec_test, outcomeMap]
  | configure b => rfl
  | getcfg =>
    unfold exec execGetcfg
    exact withCfg_congr _ _ rfl rfl
  | start =>
    unfold exec execStart
    exact withCfg_congr _ _ rfl (congrArg Host.Outcome.next sendStart_blind)
  | startch v =>
    unfold exec execStartch
    exact withCfg_congr _ _ rfl (congrArg Host.Outcome.next (sendStart_blind (s := s.setCfg _)))
  | get16 => exact classChecked_congr _ _ rfl rfl rfl (poll_blind _)
  | chk16 => exact classChecked_congr _ _ rfl rfl rfl (attempt_blind _)
  | get18 => exact classChecked_congr _ _ rfl rfl rfl (poll_blind _)
  | chk18 => exact classChecked_congr _ _ rfl rfl rfl (attempt_blind _)
  | frameCfgByte _ _ _ _ _ => cases hi
  | frameCfgWrite _ _ _ _ => cases hi
  | frameResult2 _ _ _ => cases hi
  | frameResult3 _ _ _ _ => cases hi
  | frameStatus _ _ => cases hi

/-- No step reads a record: the poll, the wait, the command and the refused word. -/
theorem step_blind (s : State) :
    outcomeMap State.forget (step s.forget) = outcomeMap State.forget (step s) := by
  rcases Option.eq_none_or_eq_some s.inFlight with hf | ⟨r, hf⟩
  · cases hc : s.commands with
    | nil => rw [step_waiting hf hc, step_waiting (s := s.forget) hf hc]; rfl
    | cons w rest =>
      cases hd : decodeCommand w with
      | ok i =>
        rw [step_command hf hc hd, step_command (s := s.forget) hf hc hd]
        exact exec_blind (s := { s with commands := rest }) (decodeCommand_isCommand hd)
      | error e => rw [step_reserved hf hc hd, step_reserved (s := s.forget) hf hc hd]
  · rw [step_polling hf, step_polling (s := s.forget) hf]
    exact congrArg Host.Outcome.next (poll_blind r)

/-! ### A read and the byte in `CFG` (R22, R69) -/

/-- The state with the byte in `CFG` replaced, and nothing else. -/
def State.swapCfg (s : State) (c : Byte) : State := { s with cfg := c }

@[simp] theorem State.swapCfg_addr (c : Byte) : (s.swapCfg c).addr = s.addr := rfl
@[simp] theorem State.swapCfg_nextDelivery (c : Byte) : (s.swapCfg c).nextDelivery = s.nextDelivery := rfl

theorem State.takeDelivery_swapCfg (c : Byte) : (s.swapCfg c).takeDelivery = s.takeDelivery.swapCfg c := by
  cases h : s.readAnswers <;> simp [State.takeDelivery, State.swapCfg, h]

@[simp] theorem memRead_swapCfg (a : BusAddr) (n : Nat) (c : Byte) :
    memRead a n (s.swapCfg c) = (memRead a n s).swapCfg c := by
  simp only [memRead, State.takeDelivery_swapCfg, State.swapCfg_nextDelivery]
  rfl

theorem poll_swapCfg (r : BlockingRead) (c : Byte) : poll r (s.swapCfg c) = (poll r s).swapCfg c := by
  obtain ⟨hc, e⟩ | ⟨hc, hb, e⟩ | ⟨hc, hb, e⟩ := poll_cases s r <;> rw [e]
  · simp [poll, hc]; rfl
  · simp [poll, hc, hb]; rfl
  · simp [poll, hc, hb]; rfl

theorem attempt_swapCfg (k : SizeClass) (c : Byte) : attempt k (s.swapCfg c) = (attempt k s).swapCfg c := by
  obtain ⟨hc, e⟩ | ⟨hc, e⟩ := attempt_cases s k <;> rw [e] <;> simp [attempt, hc] <;> rfl

@[simp] theorem outcomeMap_id (o : Host.Outcome State Fault Refusal) : outcomeMap id o = o := by
  cases o <;> rfl

/-- A class-checked read whose body does not look at `CFG` sees only its class. -/
theorem classChecked_swapCfg {k : SizeClass} {body : State → State} {c : Byte}
    (hc : sizeClass layout c = sizeClass layout s.cfg) (hbody : body (s.swapCfg c) = (body s).swapCfg c) :
    classChecked k body (s.swapCfg c) = outcomeMap (State.swapCfg · c) (classChecked k body s) := by
  rw [← outcomeMap_id (classChecked k body (s.swapCfg c))]
  exact classChecked_congr id _ rfl hc rfl hbody

/-! ### The registers and the ghost phase over a step -/

/-- An operation leaves the registers alone, but for `CONFIGURE` and `STARTCH` (R21, R24). -/
theorem exec_registers {i : Instr} (hi : i.isCommand = true) (h : exec i s = .next t) : t.addr = s.addr ∧
    ((t.cfg = s.cfg ∧ t.cfgWritten = s.cfgWritten) ∨
     ∃ b, (i = .configure b ∧ t.cfg = b ∧ t.cfgWritten = true) ∨
       (i = .startch b ∧ s.cfgWritten = true ∧ t.cfgWritten = true ∧ t.cfg = chanAmend layout s.cfg b)) := by
  obtain ⟨_, rfl⟩ | ⟨b, hb, rfl⟩ | ⟨hw, hreader⟩ := exec_command_cases hi h
  · simp
  · exact ⟨rfl, .inr ⟨b, .inl ⟨hb, rfl, rfl⟩⟩⟩
  · obtain ⟨_, rfl⟩ | ⟨_, rfl⟩ | ⟨v, hv, rfl⟩ | ⟨_, _, rfl⟩ | ⟨_, _, rfl⟩ | ⟨_, _, rfl⟩ := hreader
    · exact ⟨rfl, .inl ⟨rfl, rfl⟩⟩
    · simp
    · exact ⟨by simp, .inr ⟨v, .inr ⟨hv, hw, by simp, by simp⟩⟩⟩
    · exact ⟨rfl, .inl ⟨rfl, rfl⟩⟩
    · simp
    · simp

/-- The ready bit is bit 7 at the default layout (R75; PRESUMED, log entry 5). -/
theorem busy_layout : ∀ b : Byte, busy layout b = b.getLsbD 7 := by decide

/-- The ghost phase after a step that issued the transactions `issued` from phase `p` (R30; log entry 9). -/
def phaseAfter (p : Phase) (issued : List Transaction) : Phase :=
  match issued with
  | [.write _ [_] true] => .requested
  | [.read _ 3 _ (some [_, _, status])] => if status.getLsbD 7 then .pending else .complete
  | [.read _ 4 _ (some [_, _, _, status])] => if status.getLsbD 7 then .pending else .complete
  | _ => p

/-- From `s` to `t` the history grew by some transactions and the phase moved by them. -/
def MovesPhase (s t : State) : Prop :=
  ∃ issued, t.history = s.history ++ issued ∧ t.phase = phaseAfter s.phase issued

theorem MovesPhase.of_same (hh : t.history = s.history) (hp : t.phase = s.phase) : MovesPhase s t :=
  ⟨[], by simpa using hh, hp⟩

/-- A read transaction moves the phase by the status byte of a full frame, and not at all on a wrong count. -/
theorem phaseAfter_read (p : Phase) (a : BusAddr) (k : SizeClass) (d : Delivery) :
    phaseAfter p [.read a (frameLen k) d.cnt (d.consumed (frameLen k))] =
      if d.cnt = frameLen k then (if busy layout (d.status k) then .pending else .complete) else p := by
  rw [busy_layout]
  by_cases hc : d.cnt = frameLen k
  · rw [if_pos hc, d.consumed_good hc]
    cases k <;> rfl
  · rw [if_neg hc, d.consumed_bad hc]
    cases k <;> rfl

theorem poll_phase (r : BlockingRead) : (poll r s).phase = if s.nextDelivery.cnt = frameLen r.sizeClass then
    (if busy layout (s.nextDelivery.status r.sizeClass) then .pending else .complete) else s.phase := by
  obtain ⟨hc, e⟩ | ⟨hc, hb, e⟩ | ⟨hc, hb, e⟩ := poll_cases s r <;> simp [e, hc]

theorem attempt_phase (k : SizeClass) : (attempt k s).phase = if s.nextDelivery.cnt = frameLen k then
    (if busy layout (s.nextDelivery.status k) then .pending else .complete) else s.phase := by
  obtain ⟨hc, e⟩ | ⟨hc, e⟩ := attempt_cases s k <;> simp [e, hc]

theorem poll_movesPhase (s : State) (r : BlockingRead) : MovesPhase s (poll r s) :=
  ⟨_, poll_history s r, by rw [poll_phase, phaseAfter_read]⟩

theorem attempt_movesPhase (s : State) (k : SizeClass) : MovesPhase s (attempt k s) :=
  ⟨_, attempt_history s k, by rw [attempt_phase, phaseAfter_read]⟩

theorem sendStart_movesPhase (s : State) : MovesPhase s (sendStart s) := by
  refine ⟨_, sendStart_history s, ?_⟩
  rw [sendStart_phase]
  cases s.nextAck <;> rfl

/-- The empty write of a `TEST` moves nothing, acknowledged or not. -/
theorem probe_movesPhase (s : State) (x : Response) : MovesPhase s ((memWrite s.addr [] s).respond x) :=
  ⟨_, memWrite_history s s.addr [], by simp [phaseAfter]⟩

/-- An operation moves the phase by its transaction. -/
theorem exec_movesPhase {i : Instr} (hi : i.isCommand = true) (h : exec i s = .next t) : MovesPhase s t := by
  obtain ⟨_, rfl⟩ | ⟨b, _, rfl⟩ | ⟨_, hreader⟩ := exec_command_cases hi h
  · exact probe_movesPhase s _
  · exact .of_same rfl rfl
  · obtain ⟨_, rfl⟩ | ⟨_, rfl⟩ | ⟨v, _, rfl⟩ | ⟨_, _, rfl⟩ | ⟨r, _, rfl⟩ | ⟨k, _, rfl⟩ := hreader
    · exact .of_same rfl rfl
    · exact sendStart_movesPhase s
    · exact sendStart_movesPhase (s.setCfg _)
    · exact .of_same rfl rfl
    · exact poll_movesPhase s r
    · exact attempt_movesPhase s k

/-- A step moves the phase by the transaction it issues. -/
theorem step_movesPhase (h : step s = .next t) : MovesPhase s t := by
  obtain ⟨r, _, rfl⟩ | ⟨_, _, rfl⟩ | ⟨_, w, rest, i, _, hd, he⟩ := step_cases h
  · exact poll_movesPhase s r
  · exact .of_same rfl rfl
  · exact exec_movesPhase (s := { s with commands := rest }) (decodeCommand_isCommand hd) he

/-! ### The statements of 10_state.md -/

/-- Settles O41, case by case along what a step can do. -/
theorem stepKeepsInvariant : Obligations.StepKeepsInvariant := fun _ _ hinv hs => hinv.step hs

/-- Settles O44: the records are written by operations that do the same without them. -/
theorem recordsAreNeverRead : Obligations.RecordsAreNeverRead := step_blind

/-- Settles O39: a poll and a wait leave the registers alone, and a command does as `exec_registers` says. -/
theorem onlyConfigureAndStartchWriteCfg : Obligations.OnlyConfigureAndStartchWriteCfg := by
  intro s t h
  obtain ⟨r, _, rfl⟩ | ⟨_, _, rfl⟩ | ⟨hf, w, rest, i, hc, hd, he⟩ := step_cases h
  · simp
  · simp
  · obtain ⟨ha, hsame | ⟨b, ⟨rfl, hcfg, hw⟩ | ⟨rfl, hs, hw, hcfg⟩⟩⟩ :=
      exec_registers (decodeCommand_isCommand hd) he
    · exact ⟨ha, .inl hsame⟩
    · exact ⟨ha, .inr ⟨hf, w, rest, b, hc, .inl ⟨hd, hcfg, hw⟩⟩⟩
    · exact ⟨ha, .inr ⟨hf, w, rest, b, hc, .inr ⟨hd, hs, hw, hcfg⟩⟩⟩

/-- Settles O40: the class check sees the class, and neither a poll nor an attempt looks at `CFG`. -/
theorem readsSeeOnlyTheSizeClass : Obligations.ReadsSeeOnlyTheSizeClass := by
  intro s c hc i hi
  simp only [List.mem_cons, List.not_mem_nil, or_false] at hi
  obtain rfl | rfl | rfl | rfl := hi
  · exact classChecked_swapCfg hc (poll_swapCfg .get16 c)
  · exact classChecked_swapCfg hc (attempt_swapCfg .two c)
  · exact classChecked_swapCfg hc (poll_swapCfg .get18 c)
  · exact classChecked_swapCfg hc (attempt_swapCfg .three c)

/-- Settles O51: what a step appends to the history is what `phaseAfter` moves the phase by. -/
theorem phaseFollowsTheTransaction : Obligations.PhaseFollowsTheTransaction := by
  intro s t h
  obtain ⟨issued, hh, hp⟩ := step_movesPhase h
  rw [hh, List.drop_left, hp]
  rfl

/-- Settles O31: each of the three formats has its own refusal as its whole meaning. -/
theorem oneByteFormatsStop : Obligations.OneByteFormatsStop := fun _ _ _ _ _ _ _ => ⟨rfl, rfl, rfl⟩

/-- Settles O42: reset is a construction. -/
theorem resetMeetsInvariant : Obligations.ResetMeetsInvariant :=
  State.Inv.construct defaultAddr (some Config.cfgReset)

end Sys2Proof.Machine

/-! SUPPORT. Rules for the statements of 20_memory.md: what one poll does in the terms of `PollsTwo` and `PollsThree`, the
arrival of a frame as such a poll, what one operation appends to the records, and what a step tells the device. Then the
proofs of those statements. -/

namespace Sys2Proof.Machine
variable {s t : State}

/-! ### One poll, of either class (R111, R113, R115) -/

section
variable (s : State) (r : BlockingRead)

theorem poll_registers : SameRegisters s (poll r s) where
  cfg := poll_cfg s r
  cfgWritten := poll_cfgWritten s r
  addr := poll_addr s r

/-- A poll is one read transaction of its class's frame length (R42, R111, R113). -/
theorem poll_readOnce : ReadOnce s (poll r s) (frameLen r.sizeClass) s.nextDelivery
    (s.nextDelivery.bytes (frameLen r.sizeClass)) where
  history := poll_history s r
  calls := by
    rw [poll_calls]
    by_cases hc : s.nextDelivery.cnt = frameLen r.sizeClass <;> simp [readCalls, Delivery.consumed, hc]
  writeAnswers := poll_writeAnswers s r

variable {r}

/-- A wrong count ends the poll with the sentinel and a fresh draw (R135). -/
theorem poll_fails (hc : s.nextDelivery.cnt ≠ frameLen r.sizeClass) :
    ∃ i, Responds s (poll r s) (failResponse r.sizeClass i) ∧ s.freeIndex ≤ i ∧ (poll r s).freeIndex = i + 1 := by
  obtain ⟨_, e⟩ | ⟨hgood, _⟩ | ⟨hgood, _⟩ := poll_cases s r
  · rw [e]
    exact ⟨_, ⟨by simp, by simp, by simp⟩, memRead_freeIndex_le s s.addr _, rfl⟩
  · exact absurd hgood hc
  · exact absurd hgood hc

variable (hc : s.nextDelivery.cnt = frameLen r.sizeClass)
include hc

/-- A full frame with the ready bit set holds the read. -/
theorem poll_holds (hb : s.nextDelivery.status r.sizeClass &&& layout.rdyMask ≠ 0) : Holds s (poll r s) r := by
  obtain ⟨hbad, _⟩ | ⟨_, _, e⟩ | ⟨_, hready, _⟩ := poll_cases s r
  · exact absurd hc hbad
  · rw [e]
    exact ⟨by simp, by simp, by simp⟩
  · exact absurd (by simpa [busy] using hready) hb

/-- A full frame with the ready bit clear ends the read with its status and sample. -/
theorem poll_completes (hb : s.nextDelivery.status r.sizeClass &&& layout.rdyMask = 0) :
    Responds s (poll r s) (s.nextDelivery.response r.sizeClass) := by
  obtain ⟨hbad, _⟩ | ⟨_, hbusy, _⟩ | ⟨_, _, e⟩ := poll_cases s r
  · exact absurd hc hbad
  · exact absurd hb (by simpa [busy] using hbusy)
  · rw [e]
    exact ⟨by simp, by simp, by simp⟩

end

/-- A poll gives exactly one response, or none and is due again (R115). -/
theorem poll_responds_or_holds (s : State) (r : BlockingRead) :
    (∃ x, Responds s (poll r s) x) ∨ Holds s (poll r s) r := by
  by_cases hc : s.nextDelivery.cnt = frameLen r.sizeClass
  · by_cases hb : s.nextDelivery.status r.sizeClass &&& layout.rdyMask = 0
    · exact .inl ⟨_, poll_completes s hc hb⟩
    · exact .inr (poll_holds s hc hb)
  · obtain ⟨i, hfail, _⟩ := poll_fails s hc
    exact .inl ⟨_, hfail⟩

/-- A poll of `GET16` is R111's loop body. -/
theorem poll_get16_pollsTwo (s : State) : PollsTwo s (poll .get16 s) s.nextDelivery where
  registers := poll_registers s .get16
  read := poll_readOnce s .get16
  wrongCount := poll_fails (r := .get16) s
  busy := poll_holds (r := .get16) s
  complete := poll_completes (r := .get16) s

/-- A poll of `GET18` is R113's loop body. -/
theorem poll_get18_pollsThree (s : State) : PollsThree s (poll .get18 s) s.nextDelivery where
  registers := poll_registers s .get18
  read := poll_readOnce s .get18
  wrongCount := poll_fails (r := .get18) s
  busy := poll_holds (r := .get18) s
  complete := poll_completes (r := .get18) s

/-! ### The arrival of a frame (R42, R71, R72, R115)

A delivery added in front of the answers is none of the fields that the claims about a poll compare, so each claim about
the state with it is one about the state without it. -/

section
variable {d e : Delivery}

theorem SameRegisters.of_deliver (h : SameRegisters (s.deliver d) t) : SameRegisters s t :=
  ⟨h.cfg, h.cfgWritten, h.addr⟩

theorem ReadOnce.of_deliver {n : Nat} {bytes : List Byte} (h : ReadOnce (s.deliver d) t n e bytes) :
    ReadOnce s t n e bytes := ⟨h.history, h.calls, h.writeAnswers⟩

theorem Responds.of_deliver {x : Response} (h : Responds (s.deliver d) t x) : Responds s t x :=
  ⟨h.responses, h.inFlight, h.commands⟩

theorem Holds.of_deliver {r : BlockingRead} (h : Holds (s.deliver d) t r) : Holds s t r :=
  ⟨h.responses, h.inFlight, h.commands⟩

theorem FailsTwo.of_deliver : FailsTwo (s.deliver d) t → FailsTwo s t
  | ⟨i, h, hi, ht⟩ => ⟨i, h.of_deliver, hi, ht⟩

theorem FailsThree.of_deliver : FailsThree (s.deliver d) t → FailsThree s t
  | ⟨i, h, hi, ht⟩ => ⟨i, h.of_deliver, hi, ht⟩

theorem PollsTwo.of_deliver (h : PollsTwo (s.deliver d) t e) : PollsTwo s t e where
  registers := h.registers.of_deliver
  read := h.read.of_deliver
  wrongCount hc := (h.wrongCount hc).of_deliver
  busy hc hb := (h.busy hc hb).of_deliver
  complete hc hb := (h.complete hc hb).of_deliver

theorem PollsThree.of_deliver (h : PollsThree (s.deliver d) t e) : PollsThree s t e where
  registers := h.registers.of_deliver
  read := h.read.of_deliver
  wrongCount hc := (h.wrongCount hc).of_deliver
  busy hc hb := (h.busy hc hb).of_deliver
  complete hc hb := (h.complete hc hb).of_deliver

/-- A delivery arriving at the poll that is due answers it. -/
theorem arrive_due (d : Delivery) {r : BlockingRead} (hf : s.inFlight = some r) :
    arrive d s = .next (poll r (s.deliver d)) := by simp [arrive, hf]

/-- A delivery with no poll due is refused. -/
theorem arrive_idle (d : Delivery) (hf : s.inFlight = none) : arrive d s = .refused .noPollDue := by
  simp [arrive, hf]

/-- Whatever arrives at the poll of `GET16` is its answer, and the answers still to come stay. -/
theorem arrive_get16 (d : Delivery) (hf : s.inFlight = some .get16) :
    ∃ t, arrive d s = .next t ∧ PollsTwo s t d ∧ t.readAnswers = s.readAnswers :=
  ⟨_, arrive_due d hf, (poll_get16_pollsTwo (s.deliver d)).of_deliver, poll_readAnswers _ _⟩

/-- Whatever arrives at the poll of `GET18` is its answer, and the answers still to come stay. -/
theorem arrive_get18 (d : Delivery) (hf : s.inFlight = some .get18) :
    ∃ t, arrive d s = .next t ∧ PollsThree s t d ∧ t.readAnswers = s.readAnswers :=
  ⟨_, arrive_due d hf, (poll_get18_pollsThree (s.deliver d)).of_deliver, poll_readAnswers _ _⟩

/-- A delivery taken from the front of the answers and delivered is back where it was. -/
theorem State.deliver_taken {rest : List Delivery} (h : s.readAnswers = d :: rest) :
    ({ s with readAnswers := rest } : State).deliver d = s := by
  simp [State.deliver, ← h]

/-- A poll answered by the script is the arrival of the script's next delivery. -/
theorem step_eq_arrive {r : BlockingRead} {rest : List Delivery} (hf : s.inFlight = some r)
    (h : s.readAnswers = d :: rest) : step s = arrive d { s with readAnswers := rest } := by
  rw [step_polling hf, arrive_due (s := { s with readAnswers := rest }) d hf, State.deliver_taken h]

end

/-! ### What one operation appends to the records (R45, R46, R48, R165, R166) -/

/-- From `s` to `t` one operation, or one poll of it, was run: at most one transaction, at most one response, none only
if the read is in flight after it, and no command taken from the queue. -/
structure OneOperation (s t : State) : Prop where
  history : ∃ h, t.history = s.history ++ h ∧ h.length ≤ 1
  responses : ∃ x, t.responses = s.responses ++ x ∧ x.length ≤ 1 ∧ (x = [] → t.inFlight.isSome = true)
  calls : ∃ c, t.calls = s.calls ++ c
  commands : t.commands = s.commands

namespace OneOperation

/-- An operation that ended with its response. -/
theorem of_response {h : List Transaction} {x : Response} {c : List Call} (hh : t.history = s.history ++ h)
    (hlen : h.length ≤ 1) (hx : t.responses = s.responses ++ [x]) (hcalls : t.calls = s.calls ++ c)
    (hcmd : t.commands = s.commands) : OneOperation s t where
  history := ⟨h, hh, hlen⟩
  responses := ⟨[x], hx, le_rfl, fun he => absurd he (List.cons_ne_nil _ _)⟩
  calls := ⟨c, hcalls⟩
  commands := hcmd

/-- An operation that ended with its response and did nothing on the bus. -/
theorem of_response_alone {x : Response} (hh : t.history = s.history) (hx : t.responses = s.responses ++ [x])
    (hcalls : t.calls = s.calls) (hcmd : t.commands = s.commands) : OneOperation s t :=
  of_response (h := []) (c := []) (by simpa using hh) (Nat.zero_le _) hx (by simpa using hcalls) hcmd

theorem probe (s : State) (x : Response) : OneOperation s ((memWrite s.addr [] s).respond x) :=
  of_response (x := x) (memWrite_history s s.addr []) le_rfl (by simp) (memWrite_calls s s.addr []) (by simp)

theorem sendStart (s : State) : OneOperation s (sendStart s) :=
  of_response (sendStart_history s) le_rfl (sendStart_responses s) (sendStart_calls s) (sendStart_commands s)

theorem attempt (s : State) (k : SizeClass) : OneOperation s (attempt k s) := by
  have responds : ∃ x, (Machine.attempt k s).responses = s.responses ++ [x] := by
    obtain ⟨_, e⟩ | ⟨_, e⟩ := attempt_cases s k <;> simp [e]
  obtain ⟨_, hx⟩ := responds
  exact of_response (attempt_history s k) le_rfl hx (attempt_calls s k) (attempt_commands s k)

theorem poll (s : State) (r : BlockingRead) : OneOperation s (poll r s) where
  history := ⟨_, poll_history s r, le_rfl⟩
  responses := by
    obtain ⟨x, hx⟩ | hheld := poll_responds_or_holds s r
    · exact ⟨[x], hx.responses, le_rfl, fun he => absurd he (List.cons_ne_nil _ _)⟩
    · exact ⟨[], by simpa using hheld.responses, Nat.zero_le _, fun _ => by simp [hheld.inFlight]⟩
  calls := ⟨_, poll_calls s r⟩
  commands := poll_commands s r

/-- A command that answers a next state runs one operation. -/
theorem exec {i : Instr} (hi : i.isCommand = true) (h : exec i s = .next t) : OneOperation s t := by
  obtain ⟨_, rfl⟩ | ⟨b, _, rfl⟩ | ⟨_, hreader⟩ := exec_command_cases hi h
  · exact probe s _
  · exact of_response_alone rfl rfl rfl rfl
  · obtain ⟨_, rfl⟩ | ⟨_, rfl⟩ | ⟨v, _, rfl⟩ | ⟨k, _, rfl⟩ | ⟨r, _, rfl⟩ | ⟨k, _, rfl⟩ := hreader
    · exact of_response_alone rfl rfl rfl rfl
    · exact sendStart s
    · have started := sendStart (s.setCfg (chanAmend layout s.cfg v))
      exact ⟨started.history, started.responses, started.calls, started.commands⟩
    · exact of_response_alone rfl rfl rfl rfl
    · exact poll s r
    · exact attempt s k

end OneOperation

/-! ### What the device is told (R50) -/

/-- A transaction that acknowledges no byte tells the device nothing. -/
theorem lastAcknowledged_append_none (h : List Transaction) {x : Transaction} (hx : acknowledged x = none) :
    lastAcknowledged (h ++ [x]) = lastAcknowledged h := by
  simp [lastAcknowledged, List.filterMap_append, hx]

/-- A transaction that acknowledges a byte tells the device that byte. -/
theorem lastAcknowledged_append_some (h : List Transaction) {x : Transaction} {b : Byte}
    (hx : acknowledged x = some b) : lastAcknowledged (h ++ [x]) = some b := by
  simp [lastAcknowledged, List.filterMap_append, hx]

theorem probe_lastAcknowledged (s : State) (x : Response) :
    lastAcknowledged ((memWrite s.addr [] s).respond x).history = lastAcknowledged s.history := by
  rw [State.respond_history, memWrite_history]
  exact lastAcknowledged_append_none _ rfl

theorem poll_lastAcknowledged (s : State) (r : BlockingRead) :
    lastAcknowledged (poll r s).history = lastAcknowledged s.history := by
  rw [poll_history]
  exact lastAcknowledged_append_none _ rfl

theorem attempt_lastAcknowledged (s : State) (k : SizeClass) :
    lastAcknowledged (attempt k s).history = lastAcknowledged s.history := by
  rw [attempt_history]
  exact lastAcknowledged_append_none _ rfl

/-- A start tells the device the start byte of `CFG` if it is acknowledged, and nothing otherwise. -/
theorem sendStart_lastAcknowledged (s : State) :
    lastAcknowledged (sendStart s).history = lastAcknowledged s.history ∨
      ((sendStart s).inStep ∧ s.nextAck = true) := by
  unfold State.inStep
  rw [sendStart_history, sendStart_cfg]
  cases s.nextAck with
  | false => exact .inl (lastAcknowledged_append_none _ rfl)
  | true => exact .inr ⟨lastAcknowledged_append_some _ rfl, rfl⟩

/-- An operation tells the device nothing, unless it is a start that is acknowledged. -/
theorem exec_lastAcknowledged {i : Instr} (hi : i.isCommand = true) (h : exec i s = .next t) :
    lastAcknowledged t.history = lastAcknowledged s.history ∨
      ((t.inStep ∧ s.nextAck = true) ∧ (i = .start ∨ ∃ v, i = .startch v)) := by
  obtain ⟨_, rfl⟩ | ⟨b, _, rfl⟩ | ⟨_, hreader⟩ := exec_command_cases hi h
  · exact .inl (probe_lastAcknowledged s _)
  · exact .inl rfl
  · obtain ⟨_, rfl⟩ | ⟨hstart, rfl⟩ | ⟨v, hstartch, rfl⟩ | ⟨k, _, rfl⟩ | ⟨r, _, rfl⟩ | ⟨k, _, rfl⟩ := hreader
    · exact .inl rfl
    · exact (sendStart_lastAcknowledged s).imp_right fun told => ⟨told, .inl hstart⟩
    · exact (sendStart_lastAcknowledged (s.setCfg _)).imp_right fun told => ⟨told, .inr ⟨v, hstartch⟩⟩
    · exact .inl rfl
    · exact .inl (poll_lastAcknowledged s r)
    · exact .inl (attempt_lastAcknowledged s k)

/-! ### The statements of 20_memory.md -/

/-- Settles O29: whichever frame arrives is the poll's answer, and the one of the other class's length has a wrong
count. -/
theorem resultFramesAnswerThePoll : Obligations.ResultFramesAnswerThePoll := by
  intro s d0 d1 d2 status
  refine ⟨fun hf => ⟨arrive_get16 _ hf, ?two⟩, fun hf => ⟨arrive_get18 _ hf, ?three⟩,
    fun hf => ⟨arrive_idle _ hf, arrive_idle _ hf⟩⟩
  case two =>
    obtain ⟨t, he, hp, hleft⟩ := arrive_get16 (delivery4 d0 d1 d2 status) hf
    exact ⟨t, he, hp.wrongCount (show 4 ≠ 3 by decide), hp.registers, hp.read.history, hleft⟩
  case three =>
    obtain ⟨t, he, hp, hleft⟩ := arrive_get18 (delivery3 d0 d1 status) hf
    exact ⟨t, he, hp.wrongCount (show 3 ≠ 4 by decide), hp.registers, hp.read.history, hleft⟩

/-- Settles O43: a poll and a command run one operation, and a wait leaves the state as it is. -/
theorem stepAppendsAtMostOne : Obligations.StepAppendsAtMostOne := by
  intro s t h
  obtain ⟨r, _, rfl⟩ | ⟨hf, hc, rfl⟩ | ⟨hf, w, rest, i, hc, hd, he⟩ := step_cases h
  · obtain ⟨hh, ⟨x, hx, hlen, hheld⟩, hcalls, hcmd⟩ := OneOperation.poll s r
    exact ⟨hh, ⟨x, hx, hlen, fun hnil => .inl (hheld hnil)⟩, hcalls, .inl hcmd⟩
  · exact ⟨⟨[], by simp⟩, ⟨[], by simp [hf, hc]⟩, ⟨[], by simp⟩, .inl rfl⟩
  · obtain ⟨hh, ⟨x, hx, hlen, hheld⟩, hcalls, hcmd⟩ := OneOperation.exec (decodeCommand_isCommand hd) he
    exact ⟨hh, ⟨x, hx, hlen, fun hnil => .inl (hheld hnil)⟩, hcalls, .inr ⟨hf, w, by rw [hc, hcmd]⟩⟩

/-- Settles O50: polls, waits and every operation but an acknowledged start issue no acknowledged byte. -/
theorem deviceLearnsOnlyFromAcknowledgedStarts : Obligations.DeviceLearnsOnlyFromAcknowledgedStarts := by
  intro s t h
  obtain ⟨r, _, rfl⟩ | ⟨_, _, rfl⟩ | ⟨hf, w, rest, i, hc, hd, he⟩ := step_cases h
  · exact .inl (poll_lastAcknowledged s r)
  · exact .inl rfl
  · obtain hsame | ⟨⟨hstep, hack⟩, rfl | ⟨v, rfl⟩⟩ := exec_lastAcknowledged (decodeCommand_isCommand hd) he
    · exact .inl hsame
    · exact .inr ⟨hstep, hack, hf, w, rest, hc, .inl hd⟩
    · exact .inr ⟨hstep, hack, hf, w, rest, hc, .inr ⟨v, hd⟩⟩

/-- Settles O30: a frame row is the arrival of its bytes, and so is a poll that the script answers with them. -/
theorem pollIsTheFrameArriving : Obligations.PollIsTheFrameArriving :=
  fun _ _ _ _ _ _ _ hf => ⟨step_eq_arrive hf, step_eq_arrive hf⟩

end Sys2Proof.Machine

/-! SUPPORT. Rules for the statements of 30_encoding.md: the fields of the configuration byte under any layout R5
allows, what decoding answers on bits that fit their format, the functions of one byte, the sample decoders, the status
class, and what `withFetchWord` places. Then the proofs of those statements. -/

namespace Sys2Proof.Machine

/-! ### The fields of the configuration byte, by name (R64 to R66) -/

/-- The five fields of the configuration byte. -/
inductive FieldName where
  | rdy | ch | mode | size | gain

namespace FieldName

/-- The width of a field (R4). -/
def width : FieldName → Nat
  | rdy | mode => 1
  | ch | size | gain => 2

/-- The mask that a layout gives a field (R5). -/
def mask (L : Layout) : FieldName → Byte
  | rdy => L.rdyMask
  | ch => L.chMask
  | mode => L.modeMask
  | size => L.sizeMask
  | gain => L.gainMask

/-- The shift that a layout gives a field (R5). -/
def shift (L : Layout) : FieldName → Nat
  | rdy => L.rdyShift
  | ch => L.chShift
  | mode => L.modeShift
  | size => L.sizeShift
  | gain => L.gainShift

/-- The code of a field in a tuple of codes. -/
def code (t : Fields) : (n : FieldName) → BitVec n.width
  | rdy => t.rdy
  | ch => t.ch
  | mode => t.mode
  | size => t.size
  | gain => t.gain

end FieldName

/-- Two tuples with the same five codes are one. -/
theorem Fields.ext_code {t u : Fields} (h : ∀ n, FieldName.code t n = FieldName.code u n) : t = u := by
  cases t with | mk rdy ch mode size gain =>
  obtain rfl : rdy = u.rdy := h .rdy
  obtain rfl : ch = u.ch := h .ch
  obtain rfl : mode = u.mode := h .mode
  obtain rfl : size = u.size := h .size
  obtain rfl : gain = u.gain := h .gain
  rfl

/-- `pack` of a tuple of codes. -/
def Fields.pack (L : Layout) (t : Fields) : Byte := Machine.pack L t.rdy t.ch t.mode t.size t.gain

theorem Fields.pack_eq_or (L : Layout) (t : Fields) : t.pack L =
    inPlace (FieldName.rdy.code t) (FieldName.rdy.shift L) ||| inPlace (FieldName.ch.code t) (FieldName.ch.shift L) |||
    inPlace (FieldName.mode.code t) (FieldName.mode.shift L) |||
    inPlace (FieldName.size.code t) (FieldName.size.shift L) |||
    inPlace (FieldName.gain.code t) (FieldName.gain.shift L) := rfl

/-- Each code of `unpack` is a mask and a shift (R66). -/
theorem code_unpack (L : Layout) (b : Byte) (n : FieldName) :
    n.code (unpack L b) = field n.width b (n.mask L) (n.shift L) := by cases n <;> rfl

section
variable {L : Layout} (h : L.wf = true)
include h

/-- A field's mask is a run of its width at its shift, inside the byte (R5). -/
theorem wf_mask (n : FieldName) : n.shift L + n.width ≤ 8 ∧ n.mask L = run n.width (n.shift L) := by
  cases n with
  | rdy => exact wf_rdy h
  | ch => exact wf_ch h
  | mode => exact wf_mode h
  | size => exact wf_size h
  | gain => exact wf_gain h

/-- The masks of two different fields share no bit (R5). -/
theorem mask_and_mask {m n : FieldName} (hmn : m ≠ n) : m.mask L &&& n.mask L = 0 := by
  have hd := wf_disjoint h
  simp only [Layout.masksDisjoint, Bool.and_eq_true, beq_iff_eq] at hd
  cases m <;> cases n <;> simp_all [FieldName.mask, BitVec.and_comm]

/-- A code in place lies under its field's mask. -/
theorem inPlace_and_mask (n : FieldName) (c : BitVec n.width) :
    inPlace c (n.shift L) &&& n.mask L = inPlace c (n.shift L) := by
  cases n with
  | rdy => exact rdy_inPlace h c
  | ch => exact ch_inPlace h c
  | mode => exact mode_inPlace h c
  | size => exact size_inPlace h c
  | gain => exact gain_inPlace h c

/-- A code in place has nothing under another field's mask. -/
theorem inPlace_and_other_mask {m n : FieldName} (hmn : m ≠ n) (c : BitVec m.width) :
    inPlace c (m.shift L) &&& n.mask L = 0 :=
  and_eq_zero_of_disjoint (inPlace_and_mask h m c) (mask_and_mask h hmn)

/-- A code is read back from its place. -/
theorem inPlace_shiftRight (n : FieldName) (c : BitVec n.width) :
    (inPlace c (n.shift L) >>> n.shift L).setWidth n.width = c := by
  obtain ⟨hs, _⟩ := wf_mask h n
  cases n with
  | rdy | mode => exact inPlace_shiftRight_one hs c
  | ch | size | gain => exact inPlace_shiftRight_two hs c

/-- A field taken out of a byte and put back is the byte under the mask. -/
theorem inPlace_field (n : FieldName) (b : Byte) :
    inPlace (field n.width b (n.mask L) (n.shift L)) (n.shift L) = b &&& n.mask L := by
  obtain ⟨hs, hm⟩ := wf_mask h n
  rw [hm]
  cases n with
  | rdy | mode => exact inPlace_field_one hs b
  | ch | size | gain => exact inPlace_field_two hs b

/-- A field holds a code exactly when the byte under the mask is that code in place. -/
theorem field_eq_iff (n : FieldName) (b : Byte) (c : BitVec n.width) :
    field n.width b (n.mask L) (n.shift L) = c ↔ b &&& n.mask L = inPlace c (n.shift L) := by
  constructor
  · rintro rfl
    exact (inPlace_field h n b).symm
  · intro hb
    rw [field, hb]
    exact inPlace_shiftRight h n c

/-- Under a field's mask `pack` has that field's code in place. -/
theorem pack_and_mask (t : Fields) (n : FieldName) :
    t.pack L &&& n.mask L = inPlace (n.code t) (n.shift L) := by
  rw [Fields.pack_eq_or]
  simp only [BitVec.and_or_distrib_right]
  cases n <;> simp [inPlace_and_mask h, inPlace_and_other_mask h]

/-- `unpack` inverts `pack` (R66). -/
theorem unpack_pack (t : Fields) : unpack L (t.pack L) = t := by
  refine Fields.ext_code fun n => ?_
  rw [code_unpack, field_eq_iff h]
  exact pack_and_mask h t n

/-- `pack` inverts `unpack`, since the masks cover the byte (R66). -/
theorem pack_unpack (b : Byte) : (unpack L b).pack L = b := by
  have place (n : FieldName) : inPlace (n.code (unpack L b)) (n.shift L) = b &&& n.mask L := by
    rw [code_unpack]; exact inPlace_field h n b
  calc (unpack L b).pack L
      = b &&& L.rdyMask ||| b &&& L.chMask ||| b &&& L.modeMask ||| b &&& L.sizeMask ||| b &&& L.gainMask := by
        rw [Fields.pack_eq_or]; simp only [place]; rfl
    _ = b &&& 0xFF := by simp only [← BitVec.and_or_distrib_left, wf_cover h]
    _ = b := BitVec.and_allOnes

end

/-- The default layout is one that R5 allows (PRESUMED, log entries 5 and 6). -/
theorem layout_wf : layout.wf = true := by decide

/-- At the default positions `pack` is the concatenation of the codes (R65; PRESUMED, log entry 5). -/
theorem pack_layout : ∀ (rdy : BitVec 1) (ch : BitVec 2) (mode : BitVec 1) (size gain : BitVec 2),
    pack layout rdy ch mode size gain = rdy ++ ch ++ mode ++ size ++ gain := by decide

/-! ### Decoding of bits that fit their format (R60 to R64, R70 to R72, R75) -/

/-- Bits that decode in a format fit its width. -/
theorem decode_ok_lt {f : Format} {bits : BitVec 32} {i : Instr} (h : decode f bits = .ok i) :
    bits.toNat < 2 ^ f.width := by
  by_contra hwide
  unfold decode at h
  rw [if_pos (Nat.not_lt.mp hwide)] at h
  cases h

section
variable {bits : BitVec 32}

theorem decode_cmd12 (h : bits.toNat < 2 ^ 12) : decode .cmd12 bits = decodeCommand (bits.setWidth 12) :=
  if_neg (Nat.not_le.mpr h)

theorem decode_cfgByte (h : bits.toNat < 2 ^ 8) : decode .cfgByte bits = .ok (decodeCfgByte (bits.setWidth 8)) :=
  if_neg (Nat.not_le.mpr h)

theorem decode_wireWr1 (h : bits.toNat < 2 ^ 8) : decode .wireWr1 bits = decodeCfgWrite (bits.setWidth 8) :=
  if_neg (Nat.not_le.mpr h)

theorem decode_wireRd3 (h : bits.toNat < 2 ^ 24) : decode .wireRd3 bits =
    .ok (.frameResult2 (frameByte 3 0 bits) (frameByte 3 1 bits) (frameByte 3 2 bits)) :=
  if_neg (Nat.not_le.mpr h)

theorem decode_wireRd4 (bits : BitVec 32) : decode .wireRd4 bits =
    .ok (.frameResult3 (frameByte 4 0 bits) (frameByte 4 1 bits) (frameByte 4 2 bits) (frameByte 4 3 bits)) :=
  if_neg (Nat.not_le.mpr bits.isLt)

theorem decode_statusByte (h : bits.toNat < 2 ^ 8) :
    decode .statusByte bits = .ok (.frameStatus (bits.extractLsb' 7 1) (bits.extractLsb' 0 7)) :=
  if_neg (Nat.not_le.mpr h)

/-- Bits below `2 ^ n` are their low `n` bits, zero-extended. -/
theorem setWidth_setWidth_of_lt {n : Nat} (h : bits.toNat < 2 ^ n) : (bits.setWidth n).setWidth 32 = bits := by
  apply BitVec.eq_of_toNat_eq
  rw [BitVec.toNat_setWidth, BitVec.toNat_setWidth, Nat.mod_eq_of_lt h, Nat.mod_eq_of_lt bits.isLt]

end

/-- The low `n` bits of `n` bits zero-extended are those bits. -/
theorem setWidth_setWidth_eq {n : Nat} (hn : n ≤ 32) (x : BitVec n) : (x.setWidth 32).setWidth n = x := by
  rw [BitVec.setWidth_setWidth_of_le _ hn, BitVec.setWidth_eq]

theorem opField_commandWord (op : BitVec 4) (imm8 : Byte) : opField (commandWord op imm8) = op :=
  BitVec.extractLsb'_append_eq_left

theorem immField_commandWord (op : BitVec 4) (imm8 : Byte) : immField (commandWord op imm8) = imm8 :=
  BitVec.setWidth_append_eq_right

/-- A command word is its two fields (R60). -/
theorem commandWord_fields (w : CommandWord) : commandWord (opField w) (immField w) = w := by
  have himm : immField w = w.extractLsb' 0 8 := BitVec.setWidth_eq_extractLsb' (by decide)
  rw [himm]
  exact BitVec.extractLsb'_append_extractLsb'

theorem decodeCommand_commandWord (op : BitVec 4) (imm8 : Byte) :
    decodeCommand (commandWord op imm8) = operation op imm8 := by
  rw [decodeCommand, opField_commandWord, immField_commandWord]

/-- The bytes of a 3-byte frame, first byte received uppermost (R71). -/
theorem frameByte_result2 (d0 d1 d2 : Byte) :
    frameByte 3 0 ((d0 ++ d1 ++ d2).setWidth 32) = d0 ∧ frameByte 3 1 ((d0 ++ d1 ++ d2).setWidth 32) = d1 ∧
    frameByte 3 2 ((d0 ++ d1 ++ d2).setWidth 32) = d2 := by
  have taken (k : Nat) (hk : k + 8 ≤ 32) : ((d0 ++ d1 ++ d2).setWidth 32).extractLsb' k 8 =
      (d0 ++ d1 ++ d2).extractLsb' k 8 := BitVec.extractLsb'_setWidth_of_le hk
  refine ⟨(taken 16 (by decide)).trans ?_, (taken 8 (by decide)).trans ?_, (taken 0 (by decide)).trans ?_⟩
  · exact (BitVec.extractLsb'_append_eq_of_le (by decide)).trans BitVec.extractLsb'_append_eq_left
  · exact (BitVec.extractLsb'_append_eq_of_le (by decide)).trans BitVec.extractLsb'_append_eq_right
  · exact BitVec.extractLsb'_append_eq_right

/-- The bytes of a 4-byte frame, first byte received uppermost (R72). -/
theorem frameByte_result3 (d0 d1 d2 d3 : Byte) :
    frameByte 4 0 (d0 ++ d1 ++ d2 ++ d3) = d0 ∧ frameByte 4 1 (d0 ++ d1 ++ d2 ++ d3) = d1 ∧
    frameByte 4 2 (d0 ++ d1 ++ d2 ++ d3) = d2 ∧ frameByte 4 3 (d0 ++ d1 ++ d2 ++ d3) = d3 := by
  have upper {k : Nat} (hk : 8 ≤ k) :
      (d0 ++ d1 ++ d2 ++ d3).extractLsb' k 8 = (d0 ++ d1 ++ d2).extractLsb' (k - 8) 8 :=
    BitVec.extractLsb'_append_eq_of_le hk
  refine ⟨(upper (by decide)).trans ?_, (upper (by decide)).trans ?_, (upper (by decide)).trans ?_, ?_⟩
  · exact (BitVec.extractLsb'_append_eq_of_le (by decide)).trans BitVec.extractLsb'_append_eq_left
  · exact (BitVec.extractLsb'_append_eq_of_le (by decide)).trans BitVec.extractLsb'_append_eq_right
  · exact BitVec.extractLsb'_append_eq_right
  · exact BitVec.extractLsb'_append_eq_right

/-- The three bytes read from a frame are its low 24 bits. -/
theorem frameByte_append_three (bits : BitVec 32) :
    frameByte 3 0 bits ++ frameByte 3 1 bits ++ frameByte 3 2 bits = bits.setWidth 24 := by
  show bits.extractLsb' 16 8 ++ bits.extractLsb' 8 8 ++ bits.extractLsb' 0 8 = bits.setWidth 24
  rw [BitVec.extractLsb'_append_extractLsb'_eq_extractLsb' (show 16 = 8 + 8 from rfl),
    BitVec.extractLsb'_append_extractLsb'_eq_extractLsb' (show 8 = 0 + 8 from rfl)]
  exact (BitVec.setWidth_eq_extractLsb' (by decide)).symm

/-- The four bytes read from a frame are all its bits. -/
theorem frameByte_append_four (bits : BitVec 32) :
    frameByte 4 0 bits ++ frameByte 4 1 bits ++ frameByte 4 2 bits ++ frameByte 4 3 bits = bits := by
  show bits.extractLsb' 24 8 ++ bits.extractLsb' 16 8 ++ bits.extractLsb' 8 8 ++ bits.extractLsb' 0 8 = bits
  rw [BitVec.extractLsb'_append_extractLsb'_eq_extractLsb' (show 24 = 16 + 8 from rfl),
    BitVec.extractLsb'_append_extractLsb'_eq_extractLsb' (show 16 = 8 + 8 from rfl),
    BitVec.extractLsb'_append_extractLsb'_eq_extractLsb' (show 8 = 0 + 8 from rfl)]
  exact BitVec.extractLsb'_eq_self

/-! ### The round trips of encoding and decoding (R60 to R64, R70 to R72, R75, R79) -/

/-- A row's encoding fits its format: the per-instruction family `EncodeFits`, for every row. -/
theorem encode_lt (i : Instr) : (encode i).toNat < 2 ^ i.format.width := by
  cases i with
  | test => exact Laws.EncodeFits.test
  | configure imm8 => exact Laws.EncodeFits.configure imm8
  | getcfg => exact Laws.EncodeFits.getcfg
  | start => exact Laws.EncodeFits.start
  | startch imm8 => exact Laws.EncodeFits.startch imm8
  | get16 => exact Laws.EncodeFits.get16
  | chk16 => exact Laws.EncodeFits.chk16
  | get18 => exact Laws.EncodeFits.get18
  | chk18 => exact Laws.EncodeFits.chk18
  | frameCfgByte rdy ch mode size gain => exact Laws.EncodeFits.frameCfgByte rdy ch mode size gain
  | frameCfgWrite ch mode size gain => exact Laws.EncodeFits.frameCfgWrite ch mode size gain
  | frameResult2 d0 d1 status => exact Laws.EncodeFits.frameResult2 d0 d1 status
  | frameResult3 d0 d1 d2 status => exact Laws.EncodeFits.frameResult3 d0 d1 d2 status
  | frameStatus ready other => exact Laws.EncodeFits.frameStatus ready other

/-- A command word decodes by its operation code and operand alone (R61). -/
theorem decode_commandWord (op : BitVec 4) (imm8 : Byte) :
    decode .cmd12 ((commandWord op imm8).setWidth 32) = operation op imm8 := by
  rw [decode_cmd12 (Laws.EncodeFits.commandWord_fits op imm8), setWidth_setWidth_eq (by decide),
    decodeCommand_commandWord]

/-- A packed byte is read back as `FRAME.CFGBYTE` with its codes (R64). -/
theorem decodeCfgByte_pack (t : Fields) :
    decodeCfgByte (t.pack layout) = .frameCfgByte t.rdy t.ch t.mode t.size t.gain := by
  simp only [decodeCfgByte, unpack_pack layout_wf]

/-- A packed byte whose ready code is "initiate" is read back as `FRAME.CFGWRITE` (R70). -/
theorem decodeCfgWrite_pack {t : Fields} (h : t.rdy = layout.rdyInitiate) :
    decodeCfgWrite (t.pack layout) = .ok (.frameCfgWrite t.ch t.mode t.size t.gain) := by
  simp only [decodeCfgWrite, unpack_pack layout_wf, if_pos h]

/-- The status byte splits into its ready bit and the seven bits below it. -/
theorem statusBits_append (ready : BitVec 1) (other : BitVec 7) :
    ((ready ++ other).setWidth 32).extractLsb' 7 1 = ready ∧ ((ready ++ other).setWidth 32).extractLsb' 0 7 = other :=
  ⟨(BitVec.extractLsb'_setWidth_of_le (by decide)).trans BitVec.extractLsb'_append_eq_left,
    (BitVec.extractLsb'_setWidth_of_le (by decide)).trans BitVec.extractLsb'_append_eq_right⟩

/-- Decoding a row's bits in its own format gives the row back. -/
theorem decode_encode (i : Instr) : decode i.format (encode i) = .ok i := by
  have fits := encode_lt i
  cases i with
  | test => exact decode_commandWord 0x0 0
  | configure imm8 => exact decode_commandWord 0x1 imm8
  | getcfg => exact decode_commandWord 0x2 0
  | start => exact decode_commandWord 0x3 0
  | startch imm8 => exact decode_commandWord 0x4 imm8
  | get16 => exact decode_commandWord 0x5 0
  | chk16 => exact decode_commandWord 0x6 0
  | get18 => exact decode_commandWord 0x7 0
  | chk18 => exact decode_commandWord 0x8 0
  | frameCfgByte rdy ch mode size gain =>
    refine (decode_cfgByte fits).trans (congrArg _ ?_)
    rw [encode, setWidth_setWidth_eq (by decide)]
    exact decodeCfgByte_pack ⟨rdy, ch, mode, size, gain⟩
  | frameCfgWrite ch mode size gain =>
    refine (decode_wireWr1 fits).trans ?_
    rw [encode, setWidth_setWidth_eq (by decide)]
    exact decodeCfgWrite_pack (t := ⟨layout.rdyInitiate, ch, mode, size, gain⟩) rfl
  | frameResult2 d0 d1 status =>
    obtain ⟨h0, h1, h2⟩ := frameByte_result2 d0 d1 status
    refine (decode_wireRd3 fits).trans ?_
    rw [encode, h0, h1, h2]
  | frameResult3 d0 d1 d2 status =>
    obtain ⟨h0, h1, h2, h3⟩ := frameByte_result3 d0 d1 d2 status
    refine (decode_wireRd4 _).trans ?_
    rw [encode, h0, h1, h2, h3]
  | frameStatus ready other =>
    obtain ⟨hready, hother⟩ := statusBits_append ready other
    refine (decode_statusByte fits).trans ?_
    rw [encode, hready, hother]

/-- What a command word's fields name is encoded by these fields or, where the operation takes no operand, by its code
and 0 (R61, R62). The codes of the second and fifth case are those with an operand. -/
theorem operation_ok {op : BitVec 4} {imm8 : Byte} {i : Instr} (h : operation op imm8 = .ok i) :
    i.format = .cmd12 ∧ (encode i = (commandWord op imm8).setWidth 32 ∨
      (∀ b, i ≠ .configure b ∧ i ≠ .startch b) ∧ encode i = (commandWord op 0).setWidth 32) := by
  have named (k : Nat) (hk : op.toNat = k) : op = BitVec.ofNat 4 k := by
    rw [← hk, BitVec.ofNat_toNat, BitVec.setWidth_eq]
  unfold operation at h
  split at h <;> cases h
  case h_2 hk => exact ⟨rfl, .inl (by rw [named _ hk]; rfl)⟩
  case h_5 hk => exact ⟨rfl, .inl (by rw [named _ hk]; rfl)⟩
  all_goals next hk => exact ⟨rfl, .inr ⟨fun b => ⟨nofun, nofun⟩, by rw [named _ hk]; rfl⟩⟩

/-- A command word with `imm8` cleared is the word under `0xF00` (R60). -/
theorem commandWord_zero (op : BitVec 4) (imm8 : Byte) :
    (commandWord op 0).setWidth 32 = (commandWord op imm8).setWidth 32 &&& 0xF00 := by
  have cleared : commandWord op 0 = commandWord op imm8 &&& commandWord 0xF 0 := by
    rw [commandWord, commandWord, commandWord, BitVec.and_append]
    exact (congrArg₂ _ BitVec.and_allOnes BitVec.and_zero).symm
  rw [cleared, BitVec.setWidth_and]
  rfl

/-- The codes a write payload decodes to are those of a byte whose ready code is "initiate" (R70). -/
theorem decodeCfgWrite_ok {b : Byte} {i : Instr} (h : decodeCfgWrite b = .ok i) : ∃ t : Fields,
    t.rdy = layout.rdyInitiate ∧ t.pack layout = b ∧ i = .frameCfgWrite t.ch t.mode t.size t.gain := by
  by_cases hr : (unpack layout b).rdy = layout.rdyInitiate
  · simp only [decodeCfgWrite, if_pos hr] at h
    cases h
    exact ⟨unpack layout b, hr, pack_unpack layout_wf b, rfl⟩
  · simp only [decodeCfgWrite, if_neg hr] at h
    cases h

/-- The ready bit and the seven bits below it are the low byte. -/
theorem statusBits_extract (b : BitVec 32) : b.extractLsb' 7 1 ++ b.extractLsb' 0 7 = b.setWidth 8 := by
  rw [BitVec.extractLsb'_append_extractLsb'_eq_extractLsb' (show 7 = 0 + 7 from rfl)]
  exact (BitVec.setWidth_eq_extractLsb' (by decide)).symm

/-- Bits that decode are the encoding of what they decode to, up to an `imm8` the operation ignores (R62). -/
theorem decode_ok_encode {f : Format} {bits : BitVec 32} {i : Instr} (h : decode f bits = .ok i) :
    i.format = f ∧ (encode i = bits ∨
      (f = .cmd12 ∧ (∀ b, i ≠ .configure b ∧ i ≠ .startch b) ∧ encode i = bits &&& 0xF00)) := by
  have fits := decode_ok_lt h
  have low : (bits.setWidth f.width).setWidth 32 = bits := setWidth_setWidth_of_lt fits
  cases f with
  | cmd12 =>
    have hw := commandWord_fields (bits.setWidth 12)
    rw [decode_cmd12 fits] at h
    obtain ⟨hf, hsame | ⟨hno, hcleared⟩⟩ := operation_ok h
    · exact ⟨hf, .inl (by rw [hsame, hw]; exact low)⟩
    · refine ⟨hf, .inr ⟨rfl, hno, ?_⟩⟩
      rw [hcleared, commandWord_zero _ (immField (bits.setWidth 12)), hw]
      exact congrArg (· &&& _) low
  | cfgByte =>
    rw [decode_cfgByte fits] at h
    cases h
    exact ⟨rfl, .inl ((congrArg (BitVec.setWidth 32) (pack_unpack layout_wf _)).trans low)⟩
  | wireWr1 =>
    rw [decode_wireWr1 fits] at h
    obtain ⟨t, hr, hpack, rfl⟩ := decodeCfgWrite_ok h
    refine ⟨rfl, .inl ?_⟩
    rw [encode, ← hr]
    exact (congrArg (BitVec.setWidth 32) hpack).trans low
  | wireRd3 =>
    rw [decode_wireRd3 fits] at h
    cases h
    exact ⟨rfl, .inl ((congrArg (BitVec.setWidth 32) (frameByte_append_three bits)).trans low)⟩
  | wireRd4 =>
    rw [decode_wireRd4] at h
    cases h
    exact ⟨rfl, .inl (frameByte_append_four bits)⟩
  | statusByte =>
    rw [decode_statusByte fits] at h
    cases h
    exact ⟨rfl, .inl ((congrArg (BitVec.setWidth 32) (statusBits_extract bits)).trans low)⟩

/-- What decodes in a format is a row of that format. -/
theorem decode_format {f : Format} {bits : BitVec 32} {i : Instr} (h : decode f bits = .ok i) : i.format = f :=
  (decode_ok_encode h).1

/-- The codes `0x9` to `0xF` name no operation (R63). -/
theorem operation_reserved {op : BitVec 4} (h : 9 ≤ op.toNat) (imm8 : Byte) :
    operation op imm8 = .error (.reservedOpcode op) := by
  unfold operation
  split
  case h_10 => rfl
  all_goals omega

/-! ### The functions of one byte: `start_byte`, `chan_amend`, `size_class` (R67 to R69) -/

section
variable {m x : Byte} (hx : x &&& m = x) (c : Byte)
include hx

/-- Bits put in place under a mask leave the other bits as they are. -/
theorem replaced_and_not : (c &&& ~~~m ||| x) &&& ~~~m = c &&& ~~~m := by
  rw [BitVec.and_or_distrib_right, and_not_eq_zero hx, BitVec.and_assoc, BitVec.and_self]
  exact BitVec.or_zero

/-- Bits put in place under a mask are what stands there. -/
theorem replaced_and : (c &&& ~~~m ||| x) &&& m = x := by
  have cleared : c &&& ~~~m &&& m = 0 := by
    rw [BitVec.and_assoc, BitVec.and_comm (~~~m), BitVec.and_not_self]
    exact BitVec.and_zero
  rw [BitVec.and_or_distrib_right, cleared, hx]
  exact BitVec.zero_or

end

/-- A start byte keeps every bit outside the ready bit. -/
theorem startByte_and_not_rdyMask {L : Layout} (h : L.wf = true) (c : Byte) :
    startByte L c &&& ~~~L.rdyMask = c &&& ~~~L.rdyMask := replaced_and_not (rdy_inPlace h _) c

/-- A start byte has the initiate code in place of the ready bit. -/
theorem startByte_and_rdyMask {L : Layout} (h : L.wf = true) (c : Byte) :
    startByte L c &&& L.rdyMask = inPlace L.rdyInitiate L.rdyShift := replaced_and (rdy_inPlace h _) c

/-- At the default layout a start byte is the byte with bit 7 set (PRESUMED, log entries 5 and 6). -/
theorem startByte_layout : ∀ c : Byte, startByte layout c = c ||| 0x80 := by decide

/-- A start byte does not depend on the ready bit it overwrites. -/
theorem startByte_congr {L : Layout} {c c' : Byte} (h : c' &&& ~~~L.rdyMask = c &&& ~~~L.rdyMask) :
    startByte L c' = startByte L c := by rw [startByte, startByte, h]

theorem and_mask_and_mask (v m : Byte) : v &&& m &&& m = v &&& m := by rw [BitVec.and_assoc, BitVec.and_self]

/-- An amended byte keeps every bit outside the channel field. -/
theorem chanAmend_and_not_chMask (L : Layout) (c v : Byte) : chanAmend L c v &&& ~~~L.chMask = c &&& ~~~L.chMask :=
  replaced_and_not (and_mask_and_mask v L.chMask) c

/-- An amended byte has the operand's bits in the channel field. -/
theorem chanAmend_and_chMask (L : Layout) (c v : Byte) : chanAmend L c v &&& L.chMask = v &&& L.chMask :=
  replaced_and (and_mask_and_mask v L.chMask) c

/-- A second amendment overrides the first. -/
theorem chanAmend_chanAmend (L : Layout) (c v w : Byte) : chanAmend L (chanAmend L c v) w = chanAmend L c w :=
  congrArg (· ||| w &&& L.chMask) (chanAmend_and_not_chMask L c v)

/-- An amendment sees its operand's channel bits only. -/
theorem chanAmend_congr {L : Layout} {v w : Byte} (h : v &&& L.chMask = w &&& L.chMask) (c : Byte) :
    chanAmend L c v = chanAmend L c w := by rw [chanAmend, chanAmend, h]

/-- At the default mask the channel bits of an operand are one of four bytes (PRESUMED, log entry 5). -/
theorem and_chMask_layout_mem : ∀ v : Byte, v &&& layout.chMask ∈ [0x00#8, 0x20#8, 0x40#8, 0x60#8] := by decide

/-- The class is `THREE` exactly when the size field holds `SIZE_18`. -/
theorem sizeClass_eq_three_iff {L : Layout} (h : L.wf = true) (c : Byte) :
    sizeClass L c = .three ↔ (unpack L c).size = L.size18 := by
  have hfield : (unpack L c).size = L.size18 ↔ c &&& L.sizeMask = inPlace L.size18 L.sizeShift :=
    field_eq_iff h .size c L.size18
  rw [hfield]
  by_cases hc : c &&& L.sizeMask = inPlace L.size18 L.sizeShift
  · exact iff_of_true (if_pos hc) hc
  · exact iff_of_false (by rw [sizeClass, if_neg hc]; nofun) hc

theorem sizeClass_eq_two_iff {L : Layout} {c : Byte} : sizeClass L c = .two ↔ sizeClass L c ≠ .three := by
  cases sizeClass L c <;> simp

/-- The class sees the size field only. -/
theorem sizeClass_congr {L : Layout} {c c' : Byte} (h : c' &&& L.sizeMask = c &&& L.sizeMask) :
    sizeClass L c' = sizeClass L c := by rw [sizeClass, sizeClass, h]

/-! ### The samples (R73, R74) -/

/-- A byte appended below shifts the signed value up by a byte. -/
theorem toInt_append_byte {w : Nat} (hw : w ≠ 0) (x : BitVec w) (b : Byte) :
    (x ++ b).toInt = x.toInt * 256 + b.toNat := by
  rw [BitVec.toInt_append, if_neg (by simpa using hw)]
  omega

/-- The signed value of a byte, its sign in bit 7. -/
theorem toInt_byte (b : Byte) : b.toInt = b.toNat - (if b.getLsbD 7 then 256 else 0) := by
  rw [BitVec.toInt_eq_msb_cond, BitVec.msb_eq_getLsbD_last]
  split <;> simp_all

theorem decode16_toInt (d0 d1 : Byte) : (decode16 d0 d1).toInt =
    (d0.toNat * 256 + d1.toNat : Int) - (if d0.getLsbD 7 then 65536 else 0) := by
  have value : (decode16 d0 d1).toInt = d0.toInt * 256 + d1.toNat := toInt_append_byte (by decide) d0 d1
  rw [value, toInt_byte]
  split <;> omega

theorem decode16_range (d0 d1 : Byte) : -32768 ≤ (decode16 d0 d1).toInt ∧ (decode16 d0 d1).toInt ≤ 32767 := by
  have low : -32768 ≤ (decode16 d0 d1).toInt := BitVec.le_toInt _
  have high : (decode16 d0 d1).toInt < 32768 := BitVec.toInt_lt
  omega

theorem decode18_toInt (d0 d1 d2 : Byte) : (decode18 d0 d1 d2).toInt =
    (d0.toNat * 65536 + d1.toNat * 256 + d2.toNat : Int) - (if d0.getLsbD 7 then 16777216 else 0) := by
  have same : (decode18 d0 d1 d2).toInt = (d0 ++ d1 ++ d2).toInt := BitVec.toInt_signExtend_of_le (by decide)
  rw [same, toInt_append_byte (by decide), toInt_append_byte (by decide), toInt_byte]
  split <;> omega

/-! ### The status class (R75) -/

/-- The ready bit is read by its mask. -/
theorem busy_iff (L : Layout) (b : Byte) : busy L b = true ↔ b &&& L.rdyMask ≠ 0 := bne_iff_ne

/-- The three classes of a status byte, the sentinel first. -/
theorem statusClass_cases (L : Layout) (b : Byte) :
    (b = 0xFF ∧ statusClass L b = .fail) ∨
    (b ≠ 0xFF ∧ b &&& L.rdyMask ≠ 0 ∧ statusClass L b = .busy) ∨
    (b ≠ 0xFF ∧ b &&& L.rdyMask = 0 ∧ statusClass L b = .complete) := by
  by_cases hs : b = 0xFF
  · exact .inl ⟨hs, if_pos hs⟩
  · have unsentinel : statusClass L b = if busy L b then .busy else .complete := if_neg hs
    by_cases hb : b &&& L.rdyMask = 0
    · exact .inr (.inr ⟨hs, hb, unsentinel.trans (if_neg fun h => (busy_iff L b).mp h hb)⟩)
    · exact .inr (.inl ⟨hs, hb, unsentinel.trans (if_pos ((busy_iff L b).mpr hb))⟩)

/-! ### What `withFetchWord` places (log entries 2 and 15) -/

section
variable {s : State} {nbits w : Nat} {i : Instr}

/-- A command is written as a command word (R60). -/
theorem format_of_isCommand (h : i.isCommand = true) : i.format = .cmd12 := by
  cases i with
  | frameCfgByte | frameCfgWrite | frameResult2 | frameResult3 | frameStatus => cases h
  | _ => rfl

/-- A row of the table is decoded in the one format that its width and bits select. -/
theorem decodeTableWord_some (h : decodeTableWord nbits w = some i) :
    w < 2 ^ 32 ∧ tableFormat nbits w = some i.format ∧ decode i.format (BitVec.ofNat 32 w) = .ok i := by
  unfold decodeTableWord at h
  split at h
  · cases h
  · next hw =>
    split at h
    · cases h
    · next f hf =>
      have hd : decode f (BitVec.ofNat 32 w) = .ok i := by
        cases he : decode f (BitVec.ofNat 32 w) with
        | ok j => rw [he] at h; cases h; rfl
        | error e => rw [he] at h; cases h
      rw [decode_format hd]
      exact ⟨Nat.not_le.mp hw, hf, hd⟩

/-- The widths of the formats that rows of the table are read in. -/
theorem tableFormat_cases {f : Format} (h : tableFormat nbits w = some f) :
    (f = .cmd12 ∧ (nbits = 12 ∨ nbits = 16)) ∨ (f = .wireRd3 ∧ nbits = 24) ∨ (f = .wireRd4 ∧ nbits = 32) ∨
    ((f = .wireWr1 ∨ f = .cfgByte) ∧ nbits = 8) := by
  unfold tableFormat at h
  split_ifs at h with h12 h24 h32 h8 hbit <;> cases h
  · exact .inl ⟨rfl, h12⟩
  · exact .inr (.inl ⟨rfl, h24⟩)
  · exact .inr (.inr (.inl ⟨rfl, h32⟩))
  · exact .inr (.inr (.inr ⟨.inl rfl, h8⟩))
  · exact .inr (.inr (.inr ⟨.inr rfl, h8⟩))

/-- A command row placed is the next command of an idle block. -/
theorem step_withFetchWord_commandRow (h : decodeTableWord nbits w = some i) (hi : i.isCommand = true) :
    step (s.withFetchWord nbits w) = exec i { s with inFlight := none } := by
  obtain ⟨hw, hf, hd⟩ := decodeTableWord_some h
  rw [format_of_isCommand hi] at hf hd
  have hbits : nbits = 12 ∨ nbits = 16 := by
    obtain ⟨_, hn⟩ | ⟨hne, _⟩ | ⟨hne, _⟩ | ⟨hne | hne, _⟩ := tableFormat_cases hf
    · exact hn
    all_goals cases hne
  have hfit : (BitVec.ofNat 32 w).toNat < 2 ^ 12 := decode_ok_lt hd
  have hw12 : w < 4096 := by rwa [BitVec.toNat_ofNat, Nat.mod_eq_of_lt hw] at hfit
  have hcmd : decodeCommand (BitVec.ofNat 12 w) = .ok i := by
    rw [decode_cmd12 hfit, BitVec.setWidth_ofNat_of_le (by decide)] at hd
    exact hd
  have placed : s.withFetchWord nbits w =
      { s with inFlight := none, commands := BitVec.ofNat 12 w :: s.commands } := if_pos ⟨hbits, hw12⟩
  rw [placed, step_command rfl rfl hcmd]

/-- A 3-byte frame placed answers the poll that is due, of `GET16` if none was. -/
theorem withFetchWord_result2 {d0 d1 d2 : Byte} (h : decodeTableWord nbits w = some (.frameResult2 d0 d1 d2)) :
    s.withFetchWord nbits w =
      { s.deliver (delivery3 d0 d1 d2) with inFlight := some (s.inFlight.getD .get16) } := by
  obtain ⟨_, hf, _⟩ := decodeTableWord_some h
  obtain ⟨hne, _⟩ | ⟨_, rfl⟩ | ⟨hne, _⟩ | ⟨hne | hne, _⟩ := tableFormat_cases hf
  · cases hne
  · simp [State.withFetchWord, h]
  all_goals cases hne

/-- A 4-byte frame placed answers the poll that is due, of `GET18` if none was. -/
theorem withFetchWord_result3 {d0 d1 d2 d3 : Byte}
    (h : decodeTableWord nbits w = some (.frameResult3 d0 d1 d2 d3)) :
    s.withFetchWord nbits w =
      { s.deliver (delivery4 d0 d1 d2 d3) with inFlight := some (s.inFlight.getD .get18) } := by
  obtain ⟨_, hf, _⟩ := decodeTableWord_some h
  obtain ⟨hne, _⟩ | ⟨hne, _⟩ | ⟨_, rfl⟩ | ⟨hne | hne, _⟩ := tableFormat_cases hf
  · cases hne
  · cases hne
  · simp [State.withFetchWord, h]
  all_goals cases hne

/-- A delivery placed in front of the answers with a poll due arrives at that poll. -/
theorem step_deliver (d : Delivery) (r : BlockingRead) :
    step { s.deliver d with inFlight := some r } = arrive d { s with inFlight := some r } := by
  rw [step_polling rfl, arrive_due d rfl]
  rfl

end

/-! ### The statements of 30_encoding.md -/

/-- Settles O1: row by row, the fields of each read back from its own bits. -/
theorem decodeInvertsEncode : Obligations.DecodeInvertsEncode := decode_encode

/-- Settles O2: format by format, the fields read making up all of the bits. -/
theorem encodeInvertsDecode : Obligations.EncodeInvertsDecode := fun _ _ _ => decode_ok_encode

/-- Settles O6: a field read is a code in place, and the masks cover the byte. -/
theorem unpackInvertsPack : Obligations.UnpackInvertsPack :=
  ⟨fun _ _ => ⟨rfl, rfl, rfl, rfl, rfl⟩,
    fun _ h => ⟨fun rdy ch mode size gain => unpack_pack h ⟨rdy, ch, mode, size, gain⟩, pack_unpack h⟩, by decide⟩

/-- Settles O7: `unpack` is the inverse of `pack` on both sides. -/
theorem packIsABijection : Obligations.PackIsABijection := by
  refine ⟨fun L h b => ⟨unpack L b, pack_unpack h b, fun t ht => ?_⟩, pack_layout, by decide⟩
  have hb : t.pack L = b := ht
  rw [← hb, unpack_pack h]

/-- Settles O8: the ready code lies under its mask, and every other bit is kept. -/
theorem startByteForcesReady : Obligations.StartByteForcesReady := by
  refine ⟨fun L h c => ⟨startByte_and_not_rdyMask h c, ?ready, startByte_startByte L c, fun c' => startByte_congr⟩,
    startByte_layout, by decide, by decide⟩
  case ready => exact (field_eq_iff h .rdy _ _).mpr (startByte_and_rdyMask h c)

/-- Settles O9: the two halves of an amended byte are those of the byte and of the operand. -/
theorem chanAmendReplacesChannel : Obligations.ChanAmendReplacesChannel := by
  refine ⟨fun L c v w => ⟨rfl, chanAmend_and_not_chMask L c v, chanAmend_and_chMask L c v, ?overridden⟩,
    fun c v => ⟨_, and_chMask_layout_mem v, chanAmend_congr (and_mask_and_mask v _).symm c⟩,
    fun c => ⟨chanAmend_congr (by decide) c, chanAmend_congr (by decide) c, chanAmend_congr (by decide) c⟩,
    by decide, by decide, by decide⟩
  case overridden => exact chanAmend_chanAmend L c v w

/-- Settles O10: the size field read is the byte under its mask. -/
theorem sizeClassFollowsSizeField : Obligations.SizeClassFollowsSizeField := by
  refine ⟨fun L h c => ⟨sizeClass_eq_three_iff h c, ?two, ?others, fun c' => sizeClass_congr⟩, rfl, rfl, rfl, rfl⟩
  case two => rw [sizeClass_eq_two_iff, Ne, sizeClass_eq_three_iff h]
  case others =>
    intro rdy ch mode gain size hsize
    obtain ⟨h12, h14, h16⟩ := wf_size18 h
    have packed : (unpack L (pack L rdy ch mode size gain)).size = size :=
      congrArg Fields.size (unpack_pack h ⟨rdy, ch, mode, size, gain⟩)
    rw [sizeClass_eq_two_iff, Ne, sizeClass_eq_three_iff h, packed]
    simp only [List.mem_cons, List.not_mem_nil, or_false] at hsize
    obtain rfl | rfl | rfl := hsize
    · exact h12.symm
    · exact h14.symm
    · exact h16.symm

/-- Settles O11: the signed value of the high byte, shifted up over the low one. -/
theorem decode16IsTwosComplement : Obligations.Decode16IsTwosComplement :=
  ⟨fun d0 d1 => ⟨decode16_toInt d0 d1, decode16_range d0 d1⟩, by decide⟩

/-- Settles O12: the arithmetic law of R8, and the signed value byte by byte. -/
theorem decode18IsShiftedContainer : Obligations.Decode18IsShiftedContainer :=
  ⟨fun d0 d1 d2 g => ⟨(shiftIsSignExtension d0 d1 d2 g).symm, rfl, decode18_toInt d0 d1 d2, decode18_range d0 d1 d2⟩,
    by decide⟩

/-- Settles O28: the expansion packs the codes, or places the channel code under the mask that `STARTCH` amends. -/
theorem pseudoInstructionsSetFields : Obligations.PseudoInstructionsSetFields := by
  refine ⟨fun s rdy ch mode size gain => ⟨_, exec_configure s _, ?_⟩, fun s k hw => ⟨_, exec_startch s hw _, ?_, ?_⟩,
    by decide, by decide⟩
  · exact unpack_pack layout_wf ⟨rdy, channelCode ch, modeCode layout mode, sizeCode layout size, gainCode gain⟩
  · refine (field_eq_iff layout_wf .ch _ k).mpr ?_
    rw [sendStart_cfg, State.setCfg_cfg]
    exact (chanAmend_and_chMask _ _ _).trans (ch_inPlace layout_wf k)
  · rw [sendStart_cfg, State.setCfg_cfg]
    exact chanAmend_and_not_chMask _ _ _

/-- Settles O33: a command row is the next command of an idle block, and a frame row the arrival of its bytes. -/
theorem fetchWordIsRunNext : Obligations.FetchWordIsRunNext := by
  refine fun s nbits w i h => ⟨step_withFetchWord_commandRow h, fun hf => ?rd3, fun hf => ?rd4⟩
  case rd3 =>
    cases i with
    | frameResult2 d0 d1 status =>
      rw [withFetchWord_result2 h]
      exact step_deliver _ _
    | _ => cases hf
  case rd4 =>
    cases i with
    | frameResult3 d0 d1 d2 status =>
      rw [withFetchWord_result3 h]
      exact step_deliver _ _
    | _ => cases hf

/-- Settles O3: each code names its operation, whatever `imm8` is. -/
theorem operationCodes : Obligations.OperationCodes := by
  intro imm8
  have named (op : BitVec 4) : decodeCommand (op ++ imm8) = operation op imm8 := decodeCommand_commandWord op imm8
  exact ⟨named 0, named 1, named 2, named 3, named 4, named 5, named 6, named 7, named 8⟩

/-- Settles O4: the decoder run on the seven words. -/
theorem sampleWordsDecode : Obligations.SampleWordsDecode := by
  unfold Obligations.SampleWordsDecode
  decide

/-- Settles O5: a reserved code names no operation, and an idle block refuses the word. -/
theorem reservedCodesRefused : Obligations.ReservedCodesRefused :=
  fun _ _ _ hf hc hop => step_reserved hf hc (operation_reserved hop _)

/-- Settles O13: one class in each of the three cases of the byte. -/
theorem statusClassTestsSentinelFirst : Obligations.StatusClassTestsSentinelFirst := by
  refine ⟨fun L b => ⟨busy_iff L b, ?_⟩, by decide, by decide, by decide, by decide⟩
  obtain ⟨hs, e⟩ | ⟨hs, hb, e⟩ | ⟨hs, hb, e⟩ := statusClass_cases L b <;> rw [e]
  · exact ⟨iff_of_true rfl hs, iff_of_false nofun fun h => h.1 hs, iff_of_false nofun fun h => h.1 hs⟩
  · exact ⟨iff_of_false nofun hs, iff_of_true rfl ⟨hs, hb⟩, iff_of_false nofun fun h => hb h.2⟩
  · exact ⟨iff_of_false nofun hs, iff_of_false nofun fun h => h.2 hb, iff_of_true rfl ⟨hs, hb⟩⟩

/-- Settles O32: it is the rule of a step of an idle block. -/
theorem stepRunsDecodedCommand : Obligations.StepRunsDecodedCommand := fun _ _ _ _ => step_command

end Sys2Proof.Machine

/-! SUPPORT. Rules for the statements of 40_probe_config.md: a command word as its code above its operand, what a response
ending an operation leaves as it was, and one write transaction. Then the proofs of those statements. -/

namespace Sys2Proof.Machine
variable {s t : State}

/-- A command word is its code shifted above its operand: `(op << 8) | imm8` (R60, R79). -/
theorem commandWord_eq_or (op : BitVec 4) (imm8 : Byte) :
    commandWord op imm8 = op.setWidth 12 <<< 8 ||| imm8.setWidth 12 := by
  rw [commandWord, BitVec.append_def, BitVec.shiftLeftZeroExtend_eq, BitVec.setWidth'_eq]

/-! ### Ending an operation with a response (R60, R142) -/

/-- Responding ends an operation that has given no response and taken no command so far. -/
theorem Responds.of_respond (hr : t.responses = s.responses) (hc : t.commands = s.commands) (x : Response) :
    Responds s (t.respond x) x where
  responses := by rw [State.respond_responses, hr]
  inFlight := rfl
  commands := hc

theorem SameRegisters.respond (h : SameRegisters s t) (x : Response) : SameRegisters s (t.respond x) :=
  ⟨h.cfg, h.cfgWritten, h.addr⟩

theorem WroteOnce.respond {payload : List Byte} (h : WroteOnce s t payload) (x : Response) :
    WroteOnce s (t.respond x) payload :=
  ⟨h.history, h.calls, h.writeAnswers, h.readAnswers⟩

theorem State.respond_sameRegisters (s : State) (x : Response) : SameRegisters s (s.respond x) := ⟨rfl, rfl, rfl⟩

theorem State.respond_noBusActivity (s : State) (x : Response) : NoBusActivity s (s.respond x) :=
  ⟨rfl, rfl, rfl, rfl⟩

theorem State.setCfg_respond_noBusActivity (s : State) (v : Byte) (x : Response) :
    NoBusActivity s ((s.setCfg v).respond x) := ⟨rfl, rfl, rfl, rfl⟩

/-! ### One write transaction (R41) -/

section
variable (s : State) (payload : List Byte)

theorem memWrite_sameRegisters : SameRegisters s (memWrite s.addr payload s) where
  cfg := memWrite_cfg s s.addr payload
  cfgWritten := memWrite_cfgWritten s s.addr payload
  addr := memWrite_addr s s.addr payload

/-- `MemWrite` at `ADDR` is the one write transaction carrying its payload. -/
theorem memWrite_wroteOnce : WroteOnce s (memWrite s.addr payload s) payload where
  history := memWrite_history s s.addr payload
  calls := memWrite_calls s s.addr payload
  writeAnswers := memWrite_writeAnswers s s.addr payload
  readAnswers := memWrite_readAnswers s s.addr payload

theorem memWrite_respond_responds (x : Response) : Responds s ((memWrite s.addr payload s).respond x) x :=
  .of_respond (memWrite_responses s s.addr payload) (memWrite_commands s s.addr payload) x

end

/-! ### The statements of 40_probe_config.md -/

/-- Settles O14: `TEST` is one empty write answered by the acknowledge. -/
theorem testReportsAcknowledge : Obligations.TestReportsAcknowledge := by
  refine ⟨⟨rfl, fun imm8 => decodeCommand_commandWord 0 imm8⟩, fun s => ⟨_, exec_test s, ?_, ?_, ?_⟩⟩
  · exact memWrite_respond_responds s [] _
  · exact (memWrite_wroteOnce s []).respond _
  · exact (memWrite_sameRegisters s []).respond _

/-- Settles O15: `CONFIGURE` loads `CFG` and responds. -/
theorem configureLoadsCfg : Obligations.ConfigureLoadsCfg := by
  refine ⟨fun imm8 => ?_, fun s imm8 => ⟨_, exec_configure s imm8, rfl, rfl, ?_, ?_, rfl⟩⟩
  · have word : 0x100#12 ||| imm8.setWidth 12 = commandWord 1 imm8 := (commandWord_eq_or 1 imm8).symm
    rw [word]
    exact decodeCommand_commandWord 1 imm8
  · exact .of_respond (s.setCfg_responses imm8) (s.setCfg_commands imm8) .none
  · exact s.setCfg_respond_noBusActivity imm8 .none

/-- Settles O16: `GETCFG` does nothing but respond with `CFG`, or is refused as a reader of an unwritten `CFG`. -/
theorem getcfgReturnsCfg : Obligations.GetcfgReturnsCfg := by
  refine ⟨⟨rfl, fun imm8 => decodeCommand_commandWord 2 imm8⟩, fun s => ⟨fun written => ?_, fun unwritten => ?_⟩⟩
  · exact ⟨_, exec_getcfg s written, .of_respond rfl rfl _, s.respond_noBusActivity _, s.respond_sameRegisters _⟩
  · exact exec_unwritten s .getcfg rfl nofun nofun unwritten

end Sys2Proof.Machine

/-! SUPPORT. Rules for the statements of 41_start.md: what an amendment of the channel leaves under the other masks,
and a start in the terms of `Responds`, `WroteOnce` and `SameRegisters`. Then the proofs of those statements. -/

namespace Sys2Proof.Machine
variable {s t : State}

/-! ### The amended byte outside its channel field (R68, R69) -/

/-- Clearing bits does not show under a mask that shares none with them. -/
theorem and_not_and_of_disjoint {m n : Byte} (h : m &&& n = 0) (c : Byte) : c &&& ~~~m &&& n = c &&& n := by
  have kept : n &&& ~~~m = n := calc
    n &&& ~~~m = n &&& m ||| n &&& ~~~m := by
      rw [BitVec.and_comm n m, h]
      exact BitVec.zero_or.symm
    _ = n := by rw [← BitVec.and_or_distrib_left, BitVec.or_not_self, BitVec.and_allOnes]
  rw [BitVec.and_assoc, BitVec.and_comm (~~~m), kept]

section
variable {L : Layout} (h : L.wf = true) (c v : Byte)
include h

/-- An amended byte keeps every field but the channel. -/
theorem chanAmend_and_other_mask {n : FieldName} (hn : n ≠ .ch) :
    chanAmend L c v &&& n.mask L = c &&& n.mask L := by
  have disjoint : FieldName.mask L .ch &&& n.mask L = 0 := mask_and_mask h hn.symm
  calc chanAmend L c v &&& n.mask L
      = chanAmend L c v &&& ~~~L.chMask &&& n.mask L := (and_not_and_of_disjoint disjoint _).symm
    _ = c &&& ~~~L.chMask &&& n.mask L := by rw [chanAmend_and_not_chMask]
    _ = c &&& n.mask L := and_not_and_of_disjoint disjoint c

/-- An amendment of the channel does not change the class (R102 (d)). -/
theorem sizeClass_chanAmend : sizeClass L (chanAmend L c v) = sizeClass L c :=
  sizeClass_congr (chanAmend_and_other_mask h c v (n := .size) nofun)

/-- A start byte read back has the initiate code as its ready field (R67). -/
theorem unpack_startByte_rdy : (unpack L (startByte L c)).rdy = L.rdyInitiate :=
  (field_eq_iff h .rdy _ _).mpr (startByte_and_rdyMask h c)

end

/-! ### One start (R100, R101) -/

/-- Writing to a written `CFG` the byte it holds changes nothing, so `START` is the start on `CFG` unamended. -/
theorem State.setCfg_self (h : s.cfgWritten = true) : s.setCfg s.cfg = s := by rw [State.setCfg, ← h]

section
variable (s : State)

theorem sendStart_sameRegisters : SameRegisters s (sendStart s) where
  cfg := sendStart_cfg s
  cfgWritten := sendStart_cfgWritten s
  addr := sendStart_addr s

theorem sendStart_responds : Responds s (sendStart s) (.bool s.nextAck) where
  responses := sendStart_responses s
  inFlight := sendStart_inFlight s
  commands := sendStart_commands s

/-- A start is the one write transaction carrying the start byte of `CFG`. -/
theorem sendStart_wroteOnce : WroteOnce s (sendStart s) [startByte layout s.cfg] where
  history := sendStart_history s
  calls := sendStart_calls s
  writeAnswers := sendStart_writeAnswers s
  readAnswers := sendStart_readAnswers s

end

/-- An operation that first loads `CFG` responds as the rest of it does. -/
theorem Responds.of_setCfg {c : Byte} {x : Response} (h : Responds (s.setCfg c) t x) : Responds s t x :=
  ⟨h.responses, h.inFlight, h.commands⟩

/-- An operation that first loads `CFG` writes what the rest of it writes. -/
theorem WroteOnce.of_setCfg {c : Byte} {payload : List Byte} (h : WroteOnce (s.setCfg c) t payload) :
    WroteOnce s t payload :=
  ⟨h.history, h.calls, h.writeAnswers, h.readAnswers⟩

/-! ### The statements of 41_start.md -/

/-- Settles O19: both starts load a byte of the class of `CFG` into `CFG`, `START` the byte it holds, and send it. -/
theorem startFamilyLaws : Obligations.StartFamilyLaws := by
  intro s v written
  refine ⟨_, _, exec_start s written, exec_startch s written v, sendStart_cfg s, sendStart_cfg _, fun x hx => ?_⟩
  obtain ⟨c, class_c, rfl⟩ : ∃ c, sizeClass layout c = sizeClass layout s.cfg ∧ x = sendStart (s.setCfg c) := by
    simp only [List.mem_cons, List.not_mem_nil, or_false] at hx
    obtain rfl | rfl := hx
    · exact ⟨s.cfg, rfl, by rw [State.setCfg_self written]⟩
    · exact ⟨chanAmend layout s.cfg v, sizeClass_chanAmend layout_wf s.cfg v, rfl⟩
  have wrote : WroteOnce s (sendStart (s.setCfg c)) [startByte layout c] := (sendStart_wroteOnce (s.setCfg c)).of_setCfg
  rw [sendStart_cfg, State.setCfg_cfg]
  exact ⟨wrote.history, unpack_startByte_rdy layout_wf c, startByte_and_not_rdyMask layout_wf c, class_c,
    (sendStart_responds (s.setCfg c)).of_setCfg.responses, wrote.calls⟩

/-- Settles O17: `START` is one start on `CFG` as it stands, or is refused as a reader of an unwritten `CFG`. -/
theorem startWritesStartByte : Obligations.StartWritesStartByte := by
  refine ⟨⟨rfl, fun imm8 => decodeCommand_commandWord 3 imm8⟩, fun s => ⟨fun written => ?_, fun unwritten => ?_⟩⟩
  · refine ⟨_, exec_start s written, sendStart_responds s, sendStart_wroteOnce s, sendStart_sameRegisters s, ?_, ?_⟩
    · exact fun ack => (sendStart_phase s).trans (if_pos ack)
    · exact fun nack => (sendStart_phase s).trans (by rw [nack]; rfl)
  · exact exec_unwritten s .start rfl nofun nofun unwritten

/-- Settles O18: `STARTCH` is one start on the amended `CFG`, or is refused as a reader of an unwritten `CFG`. -/
theorem startchAmendsThenWrites : Obligations.StartchAmendsThenWrites := by
  refine ⟨fun imm8 => ?_, fun s imm8 => ⟨fun written => ⟨_, exec_startch s written imm8, ?_⟩, fun unwritten => ?_⟩⟩
  · have word : 0x400#12 ||| imm8.setWidth 12 = commandWord 4 imm8 := (commandWord_eq_or 4 imm8).symm
    rw [word]
    exact decodeCommand_commandWord 4 imm8
  · rw [sendStart_cfg, sendStart_cfgWritten, sendStart_addr, State.setCfg_cfg]
    exact ⟨rfl, (sendStart_responds _).of_setCfg, (sendStart_wroteOnce _).of_setCfg, rfl, rfl,
      sizeClass_chanAmend layout_wf s.cfg imm8⟩
  · exact exec_unwritten s (.startch imm8) rfl nofun nofun unwritten

/-- Settles O54: each start is `sendStart`, and amending `CFG` before it changes neither the phase nor the answer. -/
theorem startsMoveThePhase : Obligations.StartsMoveThePhase := by
  rintro s i written (rfl | ⟨v, rfl⟩)
  · exact ⟨_, exec_start s written, sendStart_phase s⟩
  · exact ⟨_, exec_startch s written v, sendStart_phase (s.setCfg _)⟩

end Sys2Proof.Machine

/-! SUPPORT. Rules for the statements of 42_result.md: how a read of either class fails and completes, a poll that is not
busy as a single attempt, the acceptance of a blocking read as its first poll, and a run of busy polls by induction. Then
the proofs of those statements. -/

namespace Sys2Proof.Machine
variable {s t u : State} {r : BlockingRead} {k : SizeClass} {d : Delivery}

/-! ### What a delivery is to a read (R75, R115) -/

theorem Delivery.isBusy_iff :
    d.isBusy k = true ↔ d.cnt = frameLen k ∧ busy layout (d.status k) = true := by simp [Delivery.isBusy]

theorem Delivery.isComplete_iff :
    d.isComplete k = true ↔ d.cnt = frameLen k ∧ busy layout (d.status k) = false := by simp [Delivery.isComplete]

theorem Delivery.not_busy_of_wrongCount (hc : d.cnt ≠ frameLen k) : d.isBusy k = false := by
  simp [Delivery.isBusy, hc]

theorem Delivery.not_busy_of_isComplete (hd : d.isComplete k = true) : d.isBusy k = false := by
  simp [Delivery.isBusy, (Delivery.isComplete_iff.mp hd).2]

/-- A read of a full frame enters the history as that frame (R166). -/
theorem read_eq_fullRead (a : BusAddr) (hc : d.cnt = frameLen k) :
    Transaction.read a (frameLen k) d.cnt (d.consumed (frameLen k)) = fullRead a k d := by
  rw [d.consumed_good hc, hc]
  rfl

/-- The sentinel reads as busy (R76), so a status that is not busy is not the sentinel. -/
theorem ne_sentinel_of_not_busy {b : Byte} (hb : busy layout b = false) : b ≠ Config.sentinel := by
  rintro rfl
  exact absurd hb (by decide)

/-- A status that is not busy is complete (R75). -/
theorem statusClass_of_not_busy {b : Byte} (hb : busy layout b = false) : statusClass layout b = .complete := by
  simp [statusClass, ne_sentinel_of_not_busy hb, hb]

/-- The host may use the sample of a delivery that is not busy (R141). -/
theorem Delivery.response_usable (hb : busy layout (d.status k) = false) : (d.response k).usable = true := by
  cases k with
  | two => exact beq_iff_eq.mpr (statusClass_of_not_busy (b := d.d2) hb)
  | three => exact beq_iff_eq.mpr (statusClass_of_not_busy (b := d.d3) hb)

/-! ### A failed read, of either class (R110, R135) -/

/-- A read of class `k` failed: the sentinel and a draw never used before. -/
def Fails (k : SizeClass) (s t : State) : Prop :=
  ∃ i, Responds s t (failResponse k i) ∧ s.freeIndex ≤ i ∧ t.freeIndex = i + 1

/-- At class `TWO` it is the statements' `FailsTwo`; at class `THREE`, below, their `FailsThree`. -/
theorem fails_two_iff : Fails .two s t ↔ FailsTwo s t := Iff.rfl

theorem fails_three_iff : Fails .three s t ↔ FailsThree s t := Iff.rfl

/-- A class-checked read of the class that `CFG` does not select fails, whatever its body, and does nothing else. -/
theorem classChecked_fails (body : State → State) (hw : s.cfgWritten = true) (hk : sizeClass layout s.cfg ≠ k) :
    ∃ t, classChecked k body s = .next t ∧ Fails k s t ∧ NoBusActivity s t ∧ SameRegisters s t :=
  ⟨_, classChecked_mismatch s hw body hk, ⟨s.freeIndex, ⟨rfl, rfl, rfl⟩, le_rfl, rfl⟩, ⟨rfl, rfl, rfl, rfl⟩,
    ⟨rfl, rfl, rfl⟩⟩

/-! ### A single attempt, of either class (R112, R114) -/

section
variable (s k)

theorem attempt_registers : SameRegisters s (attempt k s) where
  cfg := attempt_cfg s k
  cfgWritten := attempt_cfgWritten s k
  addr := attempt_addr s k

/-- An attempt is one read transaction of its class's frame length (R42). -/
theorem attempt_readOnce : ReadOnce s (attempt k s) (frameLen k) s.nextDelivery
    (s.nextDelivery.bytes (frameLen k)) where
  history := attempt_history s k
  calls := by
    rw [attempt_calls]
    by_cases hc : s.nextDelivery.cnt = frameLen k <;> simp [readCalls, Delivery.consumed, hc]
  writeAnswers := attempt_writeAnswers s k

variable {k}

/-- A wrong count fails the attempt. -/
theorem attempt_fails (hc : s.nextDelivery.cnt ≠ frameLen k) : Fails k s (attempt k s) := by
  obtain ⟨_, e⟩ | ⟨hgood, _⟩ := attempt_cases s k
  · rw [e]
    exact ⟨_, ⟨by simp, by simp, by simp⟩, memRead_freeIndex_le s s.addr _, rfl⟩
  · exact absurd hgood hc

/-- A full frame, busy or not, is what the attempt responds with. -/
theorem attempt_responds (hc : s.nextDelivery.cnt = frameLen k) :
    Responds s (attempt k s) (s.nextDelivery.response k) := by
  obtain ⟨hbad, _⟩ | ⟨_, e⟩ := attempt_cases s k
  · exact absurd hc hbad
  · rw [e]
    exact ⟨by simp, by simp, by simp⟩

end

/-- From `s` to `t` a read of class `k` ended with the full frame `d`, its ready bit clear (R111 to R114). -/
structure Completes (k : SizeClass) (s t : State) (d : Delivery) : Prop where
  responds : Responds s t (d.response k)
  registers : SameRegisters s t
  history : t.history = s.history ++ [fullRead s.addr k d]
  readAnswers : t.readAnswers = s.readAnswers.tail
  phase : t.phase = .complete

theorem attempt_completes (hd : s.nextDelivery.isComplete k = true) :
    Completes k s (attempt k s) s.nextDelivery := by
  obtain ⟨hc, hb⟩ := Delivery.isComplete_iff.mp hd
  exact {
    responds := attempt_responds s hc
    registers := attempt_registers s k
    history := by rw [attempt_history, read_eq_fullRead s.addr hc]
    readAnswers := attempt_readAnswers s k
    phase := by simp [attempt_phase, hc, hb] }

/-! ### A poll that is not busy, and acceptance (R111, R113, R115) -/

/-- A poll is a single attempt, unless it delivers a full frame with the ready bit set. -/
theorem poll_eq_attempt (hd : s.nextDelivery.isBusy r.sizeClass = false) : poll r s = attempt r.sizeClass s := by
  by_cases hc : s.nextDelivery.cnt = frameLen r.sizeClass
  · have hb : busy layout (s.nextDelivery.status r.sizeClass) = false := by
      simpa [Delivery.isBusy, hc] using hd
    simp [poll, attempt, hc, hb]
  · simp [poll, attempt, hc]

theorem poll_holds_of_isBusy (hd : s.nextDelivery.isBusy r.sizeClass = true) : Holds s (poll r s) r := by
  obtain ⟨hc, hb⟩ := Delivery.isBusy_iff.mp hd
  exact poll_holds s hc ((busy_iff layout _).mp hb)

/-- With `CFG` written and of its class, each of the two reads of a class is a single attempt on a delivery that is not
busy. -/
theorem exec_read_eq_attempt {i : Instr} (hi : i ∈ readsOfClass k) (hw : s.cfgWritten = true)
    (hk : sizeClass layout s.cfg = k) (hd : s.nextDelivery.isBusy k = false) : exec i s = .next (attempt k s) := by
  cases k with
  | two =>
    obtain rfl | rfl : i = .get16 ∨ i = .chk16 := by simpa [readsOfClass] using hi
    · exact (exec_get16 s hw hk).trans (congrArg _ (poll_eq_attempt (r := .get16) hd))
    · exact exec_chk16 s hw hk
  | three =>
    obtain rfl | rfl : i = .get18 ∨ i = .chk18 := by simpa [readsOfClass] using hi
    · exact (exec_get18 s hw hk).trans (congrArg _ (poll_eq_attempt (r := .get18) hd))
    · exact exec_chk18 s hw hk

/-- A read of either kind ends in the step that runs it when the next answer is a complete frame. -/
theorem exec_read_completes {i : Instr} {rest : List Delivery} (hi : i ∈ readsOfClass k) (hw : s.cfgWritten = true)
    (hk : sizeClass layout s.cfg = k) (hr : s.readAnswers = d :: rest) (hd : d.isComplete k = true) :
    exec i s = .next (attempt k s) ∧ Completes k s (attempt k s) d ∧ (attempt k s).readAnswers = rest := by
  have next : s.nextDelivery = d := s.nextDelivery_cons hr
  have completes : Completes k s (attempt k s) d := next ▸ attempt_completes (next.symm ▸ hd)
  refine ⟨exec_read_eq_attempt hi hw hk ?_, completes, by rw [completes.readAnswers, hr]; rfl⟩
  rw [next]
  exact Delivery.not_busy_of_isComplete hd

/-- With `CFG` written and of its class, a blocking read is accepted with its first poll. -/
theorem exec_blockingRead (hw : s.cfgWritten = true) (hk : sizeClass layout s.cfg = r.sizeClass) :
    exec r.instr s = .next (poll r s) := by
  cases r with
  | get16 => exact exec_get16 s hw hk
  | get18 => exact exec_get18 s hw hk

theorem State.takeDelivery_hold (s : State) (r : BlockingRead) : (s.hold r).takeDelivery = s.takeDelivery.hold r := by
  cases h : s.readAnswers <;> simp [State.takeDelivery, State.hold, h]

theorem memRead_hold (s : State) (r : BlockingRead) (a : BusAddr) (n : Nat) :
    memRead a n (s.hold r) = (memRead a n s).hold r := by
  rw [memRead, State.takeDelivery_hold]
  rfl

/-- A poll does not look at which read is in flight. -/
theorem poll_hold (s : State) (r : BlockingRead) : poll r (s.hold r) = poll r s := by
  have next : (s.hold r).nextDelivery = s.nextDelivery := rfl
  unfold poll
  simp only [next, State.hold_addr, memRead_hold]
  rfl

/-- The step that accepts a blocking read is a poll of it: it does what it would do with the read already in flight. -/
theorem step_acceptance {w : CommandWord} {cmds : List CommandWord} (hf : s.inFlight = none)
    (hw : s.cfgWritten = true) (hk : sizeClass layout s.cfg = r.sizeClass) (hcmd : s.commands = w :: cmds)
    (hdec : decodeCommand w = .ok r.instr) : step s = step (({ s with commands := cmds } : State).hold r) := by
  rw [step_command hf hcmd hdec, step_polling (State.hold_inFlight _ r), poll_hold]
  exact exec_blockingRead hw hk

/-! ### Busy polls, any number of them (R116, R117) -/

/-- From `s` to `t` the read `r` took the busy frames `ds` and nothing else happened; it is still in flight and the
answers `rest` are still to come. -/
structure StillPolling (r : BlockingRead) (s t : State) (ds rest : List Delivery) : Prop where
  holds : Holds s t r
  registers : SameRegisters s t
  history : t.history = s.history ++ ds.map (fullRead s.addr r.sizeClass)
  readAnswers : t.readAnswers = rest

theorem StillPolling.refl (hf : s.inFlight = some r) : StillPolling r s s [] s.readAnswers where
  holds := ⟨rfl, hf, rfl⟩
  registers := ⟨rfl, rfl, rfl⟩
  history := by simp
  readAnswers := rfl

theorem SameRegisters.trans (h : SameRegisters s t) (h' : SameRegisters t u) : SameRegisters s u :=
  ⟨h'.cfg.trans h.cfg, h'.cfgWritten.trans h.cfgWritten, h'.addr.trans h.addr⟩

/-- Taking a command from the queue touches no register. -/
theorem SameRegisters.of_commands {q : List CommandWord} (h : SameRegisters { s with commands := q } t) :
    SameRegisters s t := ⟨h.cfg, h.cfgWritten, h.addr⟩

/-- One busy poll, and then others. -/
theorem StillPolling.cons {ds rest : List Delivery} (hd : s.nextDelivery.isBusy r.sizeClass = true)
    (h : StillPolling r (poll r s) u ds rest) : StillPolling r s u (s.nextDelivery :: ds) rest := by
  obtain ⟨hc, _⟩ := Delivery.isBusy_iff.mp hd
  have first : Holds s (poll r s) r := poll_holds_of_isBusy hd
  exact {
    holds := ⟨h.holds.responses.trans first.responses, h.holds.inFlight, h.holds.commands.trans first.commands⟩
    registers := (poll_registers s r).trans h.registers
    history := by
      rw [h.history, poll_history, read_eq_fullRead s.addr hc, poll_addr]
      simp
    readAnswers := h.readAnswers }

/-- A read in flight takes as many busy frames as come, one a step, by induction on them. -/
theorem runSteps_busy {ds rest : List Delivery} (hf : s.inFlight = some r) (hr : s.readAnswers = ds ++ rest)
    (hbusy : ∀ x ∈ ds, x.isBusy r.sizeClass = true) :
    ∃ t, runSteps ds.length s = .next t ∧ StillPolling r s t ds rest := by
  induction ds generalizing s with
  | nil =>
    obtain rfl : s.readAnswers = rest := hr
    exact ⟨s, runSteps_zero, .refl hf⟩
  | cons x ds ih =>
    obtain rfl : s.nextDelivery = x := s.nextDelivery_cons hr
    have hx : s.nextDelivery.isBusy r.sizeClass = true := hbusy _ List.mem_cons_self
    have left : (poll r s).readAnswers = ds ++ rest := by
      rw [poll_readAnswers, hr]
      rfl
    obtain ⟨t, run, polling⟩ := ih (poll_holds_of_isBusy hx).inFlight left
      fun y hy => hbusy y (List.mem_cons_of_mem _ hy)
    exact ⟨t, (runSteps_succ (step_polling hf)).trans run, .cons hx polling⟩

/-- Polls after the read was put in flight, in the terms of the state before. -/
theorem StillPolling.of_hold {ds rest : List Delivery} (h : StillPolling r (s.hold r) t ds rest) :
    StillPolling r s t ds rest where
  holds := ⟨h.holds.responses, h.holds.inFlight, h.holds.commands⟩
  registers := ⟨h.registers.cfg, h.registers.cfgWritten, h.registers.addr⟩
  history := h.history
  readAnswers := h.readAnswers

/-- Two states that a step takes to the same outcome are taken to the same outcome by every longer run. -/
theorem runSteps_congr {n : Nat} (h : step s = step t) : runSteps (n + 1) s = runSteps (n + 1) t := by
  cases e : step t with
  | next v => rw [runSteps_succ e, runSteps_succ (h.trans e)]
  | fault x => cases x
  | refused x => rw [runSteps_refused e, runSteps_refused (h.trans e)]

/-- A blocking read accepted against busy frames and then one that is not ends, at that one, as a single attempt does. -/
theorem runSteps_acceptance {w : CommandWord} {cmds : List CommandWord} {ds rest : List Delivery}
    (hf : s.inFlight = none) (hw : s.cfgWritten = true) (hk : sizeClass layout s.cfg = r.sizeClass)
    (hcmd : s.commands = w :: cmds) (hdec : decodeCommand w = .ok r.instr) (hr : s.readAnswers = ds ++ d :: rest)
    (hbusy : ∀ x ∈ ds, x.isBusy r.sizeClass = true) (hd : d.isBusy r.sizeClass = false) :
    ∃ u, StillPolling r { s with commands := cmds } u ds (d :: rest) ∧
      runSteps (ds.length + 1) s = .next (attempt r.sizeClass u) := by
  obtain ⟨u, run, polling⟩ := runSteps_busy (s := ({ s with commands := cmds } : State).hold r) rfl hr hbusy
  have last : step u = .next (attempt r.sizeClass u) := by
    rw [step_polling polling.holds.inFlight, poll_eq_attempt]
    rwa [u.nextDelivery_cons polling.readAnswers]
  refine ⟨u, polling.of_hold, ?_⟩
  calc runSteps (ds.length + 1) s
      = runSteps (ds.length + 1) (({ s with commands := cmds } : State).hold r) :=
        runSteps_congr (step_acceptance hf hw hk hcmd hdec)
    _ = runSteps 1 u := runSteps_add run
    _ = .next (attempt r.sizeClass u) := runSteps_succ last

/-! ### The statements of 42_result.md -/

/-- Settles O45: the busy polls change nothing but the history, and the last poll is an attempt that completes. -/
theorem blockingReadEndsAfterNPlusOnePolls : Obligations.BlockingReadEndsAfterNPlusOnePolls := by
  intro r s w cmds ds rest d hf hw hk hcmd hdec hr hbusy hd
  obtain ⟨u, polling, run⟩ := runSteps_acceptance hf hw hk hcmd hdec hr hbusy (Delivery.not_busy_of_isComplete hd)
  obtain rfl : u.nextDelivery = d := u.nextDelivery_cons polling.readAnswers
  have ends : Completes r.sizeClass u (attempt r.sizeClass u) u.nextDelivery := attempt_completes hd
  refine ⟨_, run, ends.responds.inFlight, ?responses, ?history, ?readAnswers, ?commands,
    polling.registers.of_commands.trans ends.registers, ends.phase⟩
  case responses => rw [ends.responds.responses, polling.holds.responses]
  case history => rw [ends.history, polling.history, polling.registers.addr, List.map_append, ← List.append_assoc]; rfl
  case readAnswers => rw [ends.readAnswers, polling.readAnswers]; rfl
  case commands => rw [ends.responds.commands, polling.holds.commands]

/-- Settles O46: the busy polls change nothing but the history, and the last poll is an attempt that fails. -/
theorem blockingReadFailsAtTheShortPoll : Obligations.BlockingReadFailsAtTheShortPoll := by
  intro r s w cmds ds rest d hf hw hk hcmd hdec hr hbusy hd
  obtain ⟨u, polling, run⟩ := runSteps_acceptance hf hw hk hcmd hdec hr hbusy (Delivery.not_busy_of_wrongCount hd)
  obtain rfl : u.nextDelivery = d := u.nextDelivery_cons polling.readAnswers
  obtain ⟨i, fails, _⟩ := attempt_fails u hd
  refine ⟨_, i, run, fails.inFlight, ?responses, ?history, ?readAnswers, ?commands,
    polling.registers.of_commands.trans (attempt_registers u r.sizeClass)⟩
  case responses => rw [fails.responses, polling.holds.responses]
  case history => rw [attempt_history, Delivery.consumed_bad _ hd, polling.history, polling.registers.addr]
  case readAnswers => rw [attempt_readAnswers, polling.readAnswers]; rfl
  case commands => rw [fails.commands, polling.holds.commands]

/-- Settles O47: by induction on the busy frames. -/
theorem busyDeviceHangsTheRead : Obligations.BusyDeviceHangsTheRead := by
  intro r s ds rest hf hr hbusy
  obtain ⟨t, run, polling⟩ := runSteps_busy hf hr hbusy
  exact ⟨t, run, polling.holds.inFlight, polling.holds.responses, polling.history, polling.holds.commands,
    polling.registers⟩

/-- Settles O48: a busy delivery holds the read, and any other makes the poll a single attempt, which leaves the block
idle. -/
theorem pollEndsUnlessBusy : Obligations.PollEndsUnlessBusy := by
  intro r s hf
  refine ⟨_, step_polling hf, ?_⟩
  cases hd : s.nextDelivery.isBusy r.sizeClass with
  | true =>
    have held : (poll r s).inFlight = some r := (poll_holds_of_isBusy hd).inFlight
    simp [held]
  | false =>
    have idle : (poll r s).inFlight = none := by rw [poll_eq_attempt hd, attempt_inFlight]
    simp [idle]

/-- Settles O49: a poll that gives a response is a single attempt; it failed, or its status is not busy, which the
sentinel is. -/
theorem blockingReadStatusProves : Obligations.BlockingReadStatusProves := by
  intro r s t x hf hstep hx
  obtain rfl : poll r s = t := Host.Outcome.next.inj ((step_polling hf).symm.trans hstep)
  have only {y : Response} (h : Responds s (poll r s) y) : x = y := by simpa [hx] using h.responses
  by_cases hc : s.nextDelivery.cnt = frameLen r.sizeClass
  · cases hb : busy layout (s.nextDelivery.status r.sizeClass) with
    | true =>
      have held : Holds s (poll r s) r := poll_holds_of_isBusy (Delivery.isBusy_iff.mpr ⟨hc, hb⟩)
      simp [held.responses] at hx
    | false =>
      have ended : poll r s = attempt r.sizeClass s :=
        poll_eq_attempt (Delivery.not_busy_of_isComplete (Delivery.isComplete_iff.mpr ⟨hc, hb⟩))
      obtain rfl := only (ended ▸ attempt_responds s hc)
      exact .inr ⟨hc, rfl, ne_sentinel_of_not_busy hb, rfl, Delivery.response_usable hb⟩
  · obtain ⟨i, fails, _⟩ := poll_fails s hc
    exact .inl ⟨hc, i, only fails⟩

/-- Settles O25: a complete 3-byte frame ends both reads in the step that runs them. -/
theorem sixteenBitReadsComplete : Obligations.SixteenBitReadsComplete := by
  intro s d0 d1 status rest hw hk hready hr i hi
  have complete : (delivery3 d0 d1 status).isComplete .two = true :=
    Delivery.isComplete_iff.mpr ⟨rfl, (busy_layout status).trans hready⟩
  obtain ⟨run, ends, left⟩ := exec_read_completes (k := .two) hi hw hk hr complete
  exact ⟨_, run, ends.responds, ends.registers, ends.history, left, ends.phase⟩

/-- Settles O26: a complete 4-byte frame ends both reads in the step that runs them. -/
theorem eighteenBitReadsComplete : Obligations.EighteenBitReadsComplete := by
  intro s d0 d1 d2 status rest hw hk hready hr i hi
  have complete : (delivery4 d0 d1 d2 status).isComplete .three = true :=
    Delivery.isComplete_iff.mpr ⟨rfl, (busy_layout status).trans hready⟩
  obtain ⟨run, ends, left⟩ := exec_read_completes (k := .three) hi hw hk hr complete
  exact ⟨_, run, ends.responds, ends.registers, ends.history, left, ends.phase⟩

/-- Settles O20: each of the four reads is class-checked, and the class is read from the size field. -/
theorem classMismatchFailsWithoutBus : Obligations.ClassMismatchFailsWithoutBus := by
  intro s hw
  refine ⟨fun hsize i hi => ?_, fun hsize i hi => ?_⟩
  · have three : sizeClass layout s.cfg = .three := if_pos hsize
    have hk : sizeClass layout s.cfg ≠ .two := three ▸ nofun
    obtain rfl | rfl : i = .get16 ∨ i = .chk16 := by simpa using hi
    · exact classChecked_fails (poll .get16) hw hk
    · exact classChecked_fails (attempt .two) hw hk
  · have two : sizeClass layout s.cfg = .two := if_neg hsize
    have hk : sizeClass layout s.cfg ≠ .three := two ▸ nofun
    obtain rfl | rfl : i = .get18 ∨ i = .chk18 := by simpa using hi
    · exact classChecked_fails (poll .get18) hw hk
    · exact classChecked_fails (attempt .three) hw hk

/-- Settles O21: acceptance and every further step are one poll each. -/
theorem get16PollsUntilReady : Obligations.Get16PollsUntilReady := by
  refine ⟨⟨rfl, fun imm8 => decodeCommand_commandWord 5 imm8⟩, fun s => ⟨?unwritten, ?mismatch, ?accepted, ?polled⟩⟩
  case unwritten => exact exec_unwritten s .get16 rfl nofun nofun
  case mismatch => exact fun hw hk => classChecked_fails (poll .get16) hw (hk ▸ nofun)
  case accepted => exact fun hw hk => ⟨_, exec_get16 s hw hk, poll_get16_pollsTwo s, poll_readAnswers s .get16⟩
  case polled => exact fun hf => ⟨_, step_polling hf, poll_get16_pollsTwo s, poll_readAnswers s .get16⟩

/-- Settles O22: acceptance and every further step are one poll each. -/
theorem get18PollsUntilReady : Obligations.Get18PollsUntilReady := by
  refine ⟨⟨rfl, fun imm8 => decodeCommand_commandWord 7 imm8⟩, fun s => ⟨?unwritten, ?mismatch, ?accepted, ?polled⟩⟩
  case unwritten => exact exec_unwritten s .get18 rfl nofun nofun
  case mismatch => exact fun hw hk => classChecked_fails (poll .get18) hw (hk ▸ nofun)
  case accepted => exact fun hw hk => ⟨_, exec_get18 s hw hk, poll_get18_pollsThree s, poll_readAnswers s .get18⟩
  case polled => exact fun hf => ⟨_, step_polling hf, poll_get18_pollsThree s, poll_readAnswers s .get18⟩

/-- Settles O23: the read of a matching class is one attempt. -/
theorem chk16ReadsOnce : Obligations.Chk16ReadsOnce := by
  refine ⟨⟨rfl, fun imm8 => decodeCommand_commandWord 6 imm8⟩, fun s => ⟨?unwritten, ?mismatch, ?attempted⟩⟩
  case unwritten => exact exec_unwritten s .chk16 rfl nofun nofun
  case mismatch => exact fun hw hk => classChecked_fails (attempt .two) hw (hk ▸ nofun)
  case attempted => exact fun hw hk => ⟨_, exec_chk16 s hw hk, attempt_registers s .two, attempt_readAnswers s .two,
    attempt_readOnce s .two, attempt_fails (k := .two) s, attempt_responds (k := .two) s⟩

/-- Settles O24: the read of a matching class is one attempt. -/
theorem chk18ReadsOnce : Obligations.Chk18ReadsOnce := by
  refine ⟨⟨rfl, fun imm8 => decodeCommand_commandWord 8 imm8⟩, fun s => ⟨?unwritten, ?mismatch, ?attempted⟩⟩
  case unwritten => exact exec_unwritten s .chk18 rfl nofun nofun
  case mismatch => exact fun hw hk => classChecked_fails (attempt .three) hw (hk ▸ nofun)
  case attempted => exact fun hw hk => ⟨_, exec_chk18 s hw hk, attempt_registers s .three, attempt_readAnswers s .three,
    attempt_readOnce s .three, attempt_fails (k := .three) s, attempt_responds (k := .three) s⟩

end Sys2Proof.Machine

/-! SUPPORT. Rules for the statements of 60_exceptions.md: a poll and the command queue, a failed read as the whole state
`State.afterFailure`, and two states that differ in their records only. Then the proofs of those statements. -/

namespace Sys2Proof.Machine
variable {s t : State} {r : BlockingRead} {k : SizeClass}

/-! ### A poll and the command queue (R142) -/

/-- The state with other commands queued, and nothing else changed. -/
def State.queue (s : State) (q : List CommandWord) : State := { s with commands := q }

@[simp] theorem State.queue_addr (q : List CommandWord) : (s.queue q).addr = s.addr := rfl
@[simp] theorem State.queue_nextDelivery (q : List CommandWord) : (s.queue q).nextDelivery = s.nextDelivery := rfl

theorem State.takeDelivery_queue (q : List CommandWord) : (s.queue q).takeDelivery = s.takeDelivery.queue q := by
  cases h : s.readAnswers <;> simp [State.takeDelivery, State.queue, h]

@[simp] theorem memRead_queue (a : BusAddr) (n : Nat) (q : List CommandWord) :
    memRead a n (s.queue q) = (memRead a n s).queue q := by
  simp only [memRead, State.takeDelivery_queue, State.queue_nextDelivery]
  rfl

/-- A poll does the same whatever commands are queued, in each of its three outcomes. -/
theorem poll_queue (r : BlockingRead) (q : List CommandWord) : poll r (s.queue q) = (poll r s).queue q := by
  obtain ⟨hc, e⟩ | ⟨hc, hb, e⟩ | ⟨hc, hb, e⟩ := poll_cases s r <;> rw [e]
  · simp [poll, hc]; rfl
  · simp [poll, hc, hb]; rfl
  · simp [poll, hc, hb]; rfl

/-! ### A failed read as a whole state (R110, R131, R135) -/

/-- Taking the next answer touches the answers to come and the counter of free values only. -/
theorem State.takeDelivery_eq (s : State) :
    s.takeDelivery = { s with readAnswers := s.readAnswers.tail, freeIndex := s.takeDelivery.freeIndex } := by
  cases h : s.readAnswers <;> simp [State.takeDelivery, h]

/-- A failure with no bus activity leaves a response and takes a draw. -/
theorem raiseTransportFailure_eq_afterFailure (k : SizeClass) (c : FailureCause) (s : State) :
    raiseTransportFailure k c s = s.afterFailure k s.freeIndex [] s.readAnswers := by
  simp [raiseTransportFailure, State.respond, State.afterFailure]

/-- A read transaction with a wrong count is the one that `State.badRead` names, and consumes no byte (R42). -/
theorem memRead_wrongCount (hc : s.nextDelivery.cnt ≠ frameLen k) : memRead s.addr (frameLen k) s =
    (s.takeDelivery.callAll (s.badRead k).calls).record (s.badRead k) := by
  simp only [memRead, Delivery.consumed_bad _ hc]
  rfl

/-- On a wrong count a single attempt leaves that transaction, a response and a draw. -/
theorem attempt_eq_afterFailure (hc : s.nextDelivery.cnt ≠ frameLen k) : attempt k s =
    s.afterFailure k s.takeDelivery.freeIndex [s.badRead k] s.readAnswers.tail := by
  obtain ⟨_, e⟩ | ⟨hgood, _⟩ := attempt_cases s k
  · rw [e, memRead_wrongCount hc, State.takeDelivery_eq, State.afterFailure, List.flatMap_singleton]
    rfl
  · exact absurd hgood hc

/-- The draw of a wrong count was never used before. -/
theorem State.takeDelivery_freeIndex_le (s : State) : s.freeIndex ≤ s.takeDelivery.freeIndex := by
  rw [State.takeDelivery_freeIndex]
  split <;> omega

/-- Each of the two reads of a class that `CFG` does not select fails its class check. -/
theorem exec_read_mismatch {i : Instr} (hi : i ∈ readsOfClass k) (hw : s.cfgWritten = true)
    (hk : sizeClass layout s.cfg ≠ k) : exec i s = .next (raiseTransportFailure k .mismatch s) := by
  cases k with
  | two =>
    obtain rfl | rfl : i = .get16 ∨ i = .chk16 := by simpa [readsOfClass] using hi
    · exact exec_get16_mismatch s hw hk
    · exact exec_chk16_mismatch s hw hk
  | three =>
    obtain rfl | rfl : i = .get18 ∨ i = .chk18 := by simpa [readsOfClass] using hi
    · exact exec_get18_mismatch s hw hk
    · exact exec_chk18_mismatch s hw hk

/-! ### States that differ in their records only (R136, R166) -/

/-- Two states that are the same once their records are cleared take the same step but for the records. -/
theorem step_forget_congr (h : s.forget = t.forget) :
    outcomeMap State.forget (step s) = outcomeMap State.forget (step t) := by
  rw [← step_blind s, h, step_blind t]

/-! ### The statements of 60_exceptions.md -/

/-- Settles O34: the step is a poll, which passes the queue by and ends with one response or holds. -/
theorem noCommandWhilePolling : Obligations.NoCommandWhilePolling := by
  intro s r q hf
  refine ⟨poll r s, step_polling hf, poll_commands s r, ?_, ?_⟩
  · exact (step_polling (s := s.queue q) hf).trans (congrArg _ (poll_queue r q))
  · obtain ⟨x, ends⟩ | held := poll_responds_or_holds s r
    · exact .inr ⟨ends.inFlight, x, ends.responses⟩
    · exact .inl ⟨held.inFlight, held.responses⟩

/-- Settles O36: there is no fault to raise; a refused step refused its word, or its operation, which is then a reader of
an unwritten `CFG`. -/
theorem onlyTwoRefusals : Obligations.OnlyTwoRefusals := by
  refine fun s => ⟨nofun, fun r h => ?_⟩
  obtain ⟨hf, w, rest, hc, ⟨hop, hr⟩ | ⟨i, hd, he⟩⟩ := step_refused_cases h
  · exact ⟨hf, .inl ⟨w, rest, hc, hop, hr⟩⟩
  · obtain ⟨hw, ht, hconf, hr⟩ := exec_refused_cases (decodeCommand_isCommand hd) he
    exact ⟨hf, .inr ⟨w, rest, i, hc, hd, ht, hconf, hw, hr⟩⟩

/-- Settles O52: a mismatch fails before the bus; a wrong count, at acceptance or at a poll in flight, makes the read a
single attempt that fails; and what either leaves beside its answers and draw is a record, which no step reads. -/
theorem failureIsNotSticky : Obligations.FailureIsNotSticky := by
  refine fun s => ⟨fun k i hi hw => ⟨?mismatch, ?accepted⟩, ?polled, ?next⟩
  case mismatch =>
    intro hk
    rw [exec_read_mismatch hi hw hk, raiseTransportFailure_eq_afterFailure]
  case accepted =>
    intro hk hc
    refine ⟨_, s.takeDelivery_freeIndex_le, ?_⟩
    rw [exec_read_eq_attempt hi hw hk (Delivery.not_busy_of_wrongCount hc), attempt_eq_afterFailure hc]
  case polled =>
    intro r hf hc
    refine ⟨_, s.takeDelivery_freeIndex_le, ?_⟩
    rw [step_polling hf, poll_eq_attempt (Delivery.not_busy_of_wrongCount hc), attempt_eq_afterFailure hc]
  case next => exact fun _ _ _ _ => step_forget_congr rfl

/-- Settles O35: with nothing in flight and nothing queued the step is the wait of R165. -/
theorem idleBlockWaits : Obligations.IdleBlockWaits := fun _ => step_waiting

end Sys2Proof.Machine

/-! SUPPORT. Rules for the statements of 70_reset_and_hazards.md: exactly when an operation is refused, and exactly when it
runs. Then the proof of the statement. -/

namespace Sys2Proof.Machine
variable {s : State} {i : Instr}

/-! ### When a command runs, exactly (R132, R152) -/

/-- The refusal of R152 is given to a reader of an unwritten `CFG`, and to nothing else. -/
theorem exec_refused_iff (hi : i.isCommand = true) : exec i s = .refused .cfgUnwritten ↔
    s.cfgWritten = false ∧ i ≠ .test ∧ ∀ b, i ≠ .configure b := by
  constructor
  · intro h
    obtain ⟨hw, ht, hc, _⟩ := exec_refused_cases hi h
    exact ⟨hw, ht, hc⟩
  · rintro ⟨hw, ht, hc⟩
    exact exec_unwritten s i hi ht hc hw

/-- An operation runs exactly when it does not meet the condition of its refusal. -/
theorem exec_next_iff (hi : i.isCommand = true) : (∃ t, exec i s = .next t) ↔
    s.cfgWritten = true ∨ i = .test ∨ ∃ b, i = .configure b := by
  constructor
  · rintro ⟨t, run⟩
    by_contra h
    have refused : exec i s = .refused .cfgUnwritten := (exec_refused_iff hi).mpr (by simpa using h)
    rw [run] at refused
    cases refused
  · rintro (hw | rfl | ⟨b, rfl⟩)
    · exact exec_runs hi hw
    · exact ⟨_, exec_test s⟩
    · exact ⟨_, exec_configure s b⟩

/-! ### The statement of 70_reset_and_hazards.md -/

/-- Settles O27: the condition of the refusal, and its negation. -/
theorem commandsRunOnceConfigured : Obligations.CommandsRunOnceConfigured :=
  fun _ _ hi => ⟨exec_next_iff hi, exec_refused_iff hi⟩

end Sys2Proof.Machine
